-- ==== Sys2Proof/Word.lean ====
section
/-! DEFINITION. The widths of the block's words (R10, R11, R13, R60) and nothing else: no operation of
the block interprets a value as signed, and the only computation on a value is placing or taking a
single bit (R14, R146), which Machine/Operands.lean does. -/

namespace Sys2Proof

/-- A level is one bit: `true` is 1, high; `false` is 0, low (R13, D33; entry 9). -/
abbrev Level := Bool

/-- A command word `CMD` (R60). -/
abbrev CmdWord := BitVec 16

/-- A value of `VALUE_WIDTH = 32` bits: `WDATA`, RDATA, IDCODE (R10, R60). -/
abbrev DataWord := BitVec 32

/-- An acknowledgment of `ACK_WIDTH = 3` bits (R11). -/
abbrev AckBits := BitVec 3

end Sys2Proof
end

