-- ==== Sys2Proof/Syntax.lean ====
section
/-! DEFINITION. The commands of the block: one constructor per row of the opcode map (R63), in the
order of spec/opcode_table.json. -/

namespace Sys2Proof

/-- A command with its operands as R61 assembles them: `len` is the unscaled unsigned count n,
`value` the 32-bit WDATA, `level` the bit LVL. -/
inductive Instr where
  /-- INIT, OP 0x0 (R100). -/
  | init
  /-- CLOCK_PULSE, OP 0x1 (R110). -/
  | clockPulse
  /-- SET_READ_MODE, OP 0x2 (R120). -/
  | setReadMode
  /-- SET_WRITE_MODE, OP 0x3 (R122). -/
  | setWriteMode
  /-- TURN_AROUND, OP 0x4 (R124). -/
  | turnAround
  /-- WRITE_BITS v, n, OP 0x5 (R142). -/
  | writeBits (value : DataWord) (len : Nat)
  /-- READ_BITS n, OP 0x6 (R145). -/
  | readBits (len : Nat)
  /-- READ_ACK, OP 0x7 (R160). -/
  | readAck
  /-- SET_DATA l, OP 0x8 (R140). -/
  | setData (level : Level)
  deriving DecidableEq, Repr

end Sys2Proof
end

