-- ==== Sys2Proof/WellFormed.lean ====
section
/-! DEFINITION. Which commands have a command word: LEN is a 6-bit field, "0 to 63 encodable" (R60).
Every other operand is in range by its type. A count from 33 to 63 is well formed: it decodes, and
faults when performed (R66). -/

namespace Sys2Proof

/-- A count that fits the field LEN = CMD[9:4] (R60). -/
def lenEncodable (n : Nat) : Bool := n ≤ 63

/-- The command has a command word (R60). -/
def Instr.wellFormed : Instr → Bool
  | .init => true
  | .clockPulse => true
  | .setReadMode => true
  | .setWriteMode => true
  | .turnAround => true
  | .writeBits _ len => lenEncodable len
  | .readBits len => lenEncodable len
  | .readAck => true
  | .setData _ => true

end Sys2Proof
end

