-- ==== Sys2Proof/Decode.lean ====
section
/-! DEFINITION. The decoder (R60 to R67), total on every command word and operand and rejecting by
name; after it the encoder, written from the same table, and the opcode map of R63 as data. -/

namespace Sys2Proof

/-- OP = CMD[3:0] (R60). -/
def opField (cmd : CmdWord) : BitVec 4 := cmd.extractLsb' 0 4

/-- LEN = CMD[9:4] (R60). -/
def lenField (cmd : CmdWord) : BitVec 6 := cmd.extractLsb' 4 6

/-- LVL = CMD[10] (R60). -/
def lvlField (cmd : CmdWord) : Level := cmd.getLsbD 10

/-- RES = CMD[15:11] (R60). -/
def resField (cmd : CmdWord) : BitVec 5 := cmd.extractLsb' 11 5

/-- `n = zext_32(CMD[9:4])`, unsigned and not scaled (R61). -/
def lenOperand (cmd : CmdWord) : Nat := (lenField cmd).toNat

/-- Why a word is ILLEGAL (R64, R65). All three raise `Fault(ILLEGAL_COMMAND)`. -/
inductive Illegal where
  /-- RES = CMD[15:11] is not 0 (R64). -/
  | reservedBits
  /-- OP is one of 0x9 to 0xF (R65). -/
  | reservedOp
  /-- LEN or LVL is not 0 in a command that does not use it (R64). -/
  | unusedField
  deriving DecidableEq, Repr

/-- What R67 returns: a command with its operands, or ILLEGAL. -/
inductive Decoded where
  /-- The word matches exactly this command's row. -/
  | command (i : Instr)
  /-- The word matches no row. -/
  | illegal (why : Illegal)
  deriving DecidableEq, Repr

/-- The command, where there is one. -/
def Decoded.toOption : Decoded → Option Instr
  | .command i => some i
  | .illegal _ => none

/-- A command that uses neither LEN nor LVL: both must be 0 (R64, R67). -/
def decodePlain (cmd : CmdWord) (i : Instr) : Decoded :=
  if lenField cmd = 0 ∧ lvlField cmd = false then .command i else .illegal .unusedField

/-- A command that uses LEN: LVL must be 0 (R64, R67). -/
def decodeWithLen (cmd : CmdWord) (i : Nat → Instr) : Decoded :=
  if lvlField cmd = false then .command (i (lenOperand cmd)) else .illegal .unusedField

/-- A command that uses LVL: LEN must be 0 (R64, R67). -/
def decodeWithLvl (cmd : CmdWord) (i : Level → Instr) : Decoded :=
  if lenField cmd = 0 then .command (i (lvlField cmd)) else .illegal .unusedField

/-- `decode(CMD[15:0], WDATA[31:0])` of R67. WDATA is used by WRITE_BITS alone (R60). -/
def decode (cmd : CmdWord) (wdata : DataWord) : Decoded :=
  if resField cmd = 0 then
    match (opField cmd).toNat with
    | 0x0 => decodePlain cmd .init
    | 0x1 => decodePlain cmd .clockPulse
    | 0x2 => decodePlain cmd .setReadMode
    | 0x3 => decodePlain cmd .setWriteMode
    | 0x4 => decodePlain cmd .turnAround
    | 0x5 => decodeWithLen cmd (.writeBits wdata)
    | 0x6 => decodeWithLen cmd .readBits
    | 0x7 => decodePlain cmd .readAck
    | 0x8 => decodeWithLvl cmd .setData
    | _ => .illegal .reservedOp
  else .illegal .reservedBits

/-- The bits of a count in LEN's place, `n << 4` (R142, R145). -/
def lenBits (n : Nat) : CmdWord := (BitVec.ofNat 6 n).zeroExtend 16 <<< 4

/-- The bit of a level in LVL's place, `l << 10` (R140). -/
def lvlBits (l : Level) : CmdWord := (BitVec.ofBool l).zeroExtend 16 <<< 10

/-- The command word `CMD` of a command (the Encoding lines of R100 to R160). -/
def encodeCmd : Instr → CmdWord
  | .init => 0x0000
  | .clockPulse => 0x0001
  | .setReadMode => 0x0002
  | .setWriteMode => 0x0003
  | .turnAround => 0x0004
  | .writeBits _ n => 0x0005 ||| lenBits n
  | .readBits n => 0x0006 ||| lenBits n
  | .readAck => 0x0007
  | .setData l => 0x0008 ||| lvlBits l

/-- The operand `WDATA` a command carries: WRITE_BITS only (R60). -/
def encodeOperand : Instr → Option DataWord
  | .writeBits v _ => some v
  | .init | .clockPulse | .setReadMode | .setWriteMode | .turnAround => none
  | .readBits _ | .readAck | .setData _ => none

/-- The value handed over beside the command word: WDATA, or 0 where the command carries none. -/
def encodeWdata (i : Instr) : DataWord := (encodeOperand i).getD 0

/-- The words of a command as the CALLER hands them to the block (R53, R60). -/
def encode (i : Instr) : CmdWord × DataWord := (encodeCmd i, encodeWdata i)

/-- The mnemonics of R63. -/
inductive Mnemonic where
  | INIT | CLOCK_PULSE | SET_READ_MODE | SET_WRITE_MODE | TURN_AROUND
  | WRITE_BITS | READ_BITS | READ_ACK | SET_DATA
  deriving DecidableEq, Repr

/-- The mnemonic of a command (R63). -/
def mnemonicOf : Instr → Mnemonic
  | .init => .INIT
  | .clockPulse => .CLOCK_PULSE
  | .setReadMode => .SET_READ_MODE
  | .setWriteMode => .SET_WRITE_MODE
  | .turnAround => .TURN_AROUND
  | .writeBits _ _ => .WRITE_BITS
  | .readBits _ => .READ_BITS
  | .readAck => .READ_ACK
  | .setData _ => .SET_DATA

/-- One row of the match and mask table of R63. -/
structure OpcodeRow where
  mnemonic : Mnemonic
  mask : CmdWord
  value : CmdWord
  deriving DecidableEq, Repr

/-- The word matches the row (R64). -/
def OpcodeRow.matchesWord (row : OpcodeRow) (cmd : CmdWord) : Bool := cmd &&& row.mask == row.value

/-- The match and mask of each command word (R63). -/
def opcodeMap : List OpcodeRow := [
  ⟨.INIT, 0xFFFF, 0x0000⟩,
  ⟨.CLOCK_PULSE, 0xFFFF, 0x0001⟩,
  ⟨.SET_READ_MODE, 0xFFFF, 0x0002⟩,
  ⟨.SET_WRITE_MODE, 0xFFFF, 0x0003⟩,
  ⟨.TURN_AROUND, 0xFFFF, 0x0004⟩,
  ⟨.WRITE_BITS, 0xFC0F, 0x0005⟩,
  ⟨.READ_BITS, 0xFC0F, 0x0006⟩,
  ⟨.READ_ACK, 0xFFFF, 0x0007⟩,
  ⟨.SET_DATA, 0xFBFF, 0x0008⟩]

/-- The command the decoder reads from an instruction whose bits are `w`, CMD its bits 15..0 and
WDATA its bits 47..16; every bit from `nbits` up is 0. -/
def decodeTableWord (nbits w : Nat) : Option Instr :=
  (decode (BitVec.ofNat 16 (w % 2 ^ nbits)) (BitVec.ofNat 32 (w % 2 ^ nbits / 2 ^ 16))).toOption

end Sys2Proof
end

