-- ==== Sys2Proof/Config.lean ====
section
/-! DEFINITION. What the spec leaves OPEN: the parameters a block is created with (R8, R9, D14, D15)
and the level a sample returns (R44, D13). Each is an opaque constant without a body: nothing in Lean
can evaluate it, so a claim that mentions it holds whatever it is. -/

namespace Sys2Proof.Config

/-- OPEN parameter `PIN_CLK` (R8, D15), used by `State.reset` alone. DESIGN CHOICE, safe (entry 4). -/
opaque pinClk : Nat

/-- Where PIN_DIO lies among the pin identifiers other than PIN_CLK. DESIGN CHOICE, safe (entry 4). -/
opaque pinDioChoice : Nat

/-- OPEN parameter `PIN_DIO` (R8, D15): the `pinDioChoice`-th identifier that is not PIN_CLK, so that
every pair of distinct identifiers, and no other, is a possible configuration. -/
def pinDio : Nat := if pinDioChoice < pinClk then pinDioChoice else pinDioChoice + 1

/-- `T_HALF` less one. DESIGN CHOICE, safe (entry 5). -/
opaque tHalfLessOne : Nat

/-- OPEN parameter `T_HALF`, a positive duration (R9, D14). -/
def tHalf : Nat := tHalfLessOne + 1

/-- FREE VALUE. The level the TARGET on data line `pinDio` answers at the n-th sample, for a sample the
state lays out no answer for: `draw_TARGET()` returns any level (R44, D13). Instances have data lines of
their own (R213), so none draws what another draws. DESIGN CHOICE, safe but for
a claim that compares two runs of one data line (entries 2 and 31). -/
opaque targetDraw : (pinDio n : Nat) → Bool

end Sys2Proof.Config
end

