-- ==== Sys2Proof/Machine/State.lean ====
section
/-! DEFINITION. The machine's state as plain data: the elements S0 to S12 of the block (R20 to R31),
P0 to P2 of the reference program (R32, R33, R37), the list of commands pc indexes, and what the
TARGET answers at the coming samples. Machine/Ops.lean holds every read and write of it. -/

namespace Sys2Proof.Machine

/-- The two pins as events name them: PIN_CLK and PIN_DIO (R21). Their identifiers are S0 and S1. -/
inductive Pin where
  | clk
  | dio
  deriving DecidableEq, Repr

/-- The mode a `Mode` event gives a pin: OUT or IN (R30). -/
inductive PinMode where
  | out
  | inp
  deriving DecidableEq, Repr

/-- S2, the direction the block last gave the clock pin (R22). -/
inductive ClkMode where
  | unconf
  | out
  deriving DecidableEq, Repr

/-- S3, the direction the block last gave the data pin (R23). -/
inductive DioMode where
  | unconf
  | out
  | inp
  deriving DecidableEq, Repr

/-- S6, the link direction (R26). -/
inductive Dir where
  | unknown
  | write
  | read
  deriving DecidableEq, Repr

/-- One pin event, in the four kinds of R30. -/
inductive Event where
  /-- `Mode(p, m)`: pin p is made an output or an input. -/
  | mode (p : Pin) (m : PinMode)
  /-- `Set(p, l)`: the block drives level l on output pin p. -/
  | set (p : Pin) (l : Level)
  /-- `Delay`: the block waits T_HALF. -/
  | delay
  /-- `Sample(p, l)`: the block reads level l from pin p. -/
  | sample (p : Pin) (l : Level)
  deriving DecidableEq, Repr

/-- The fault codes of R201. Codes 6 to 15 are never raised and are no values of the type (U18). -/
inductive FaultCode where
  /-- 0, no fault. -/
  | none
  /-- 1, the word matches no row of R63. -/
  | illegalCommand
  /-- 2, `INIT_DONE = 0` (R202). -/
  | notInitialized
  /-- 3, n > 32 (R66). -/
  | lengthOutOfRange
  /-- 4, `DIR != WRITE` (R203). -/
  | dirNotWrite
  /-- 5, `DIR != READ` (R203). -/
  | dirNotRead
  deriving DecidableEq, Repr

/-- S11, the fault state (R29): `cmd` is the word that faulted, none is `?`. -/
structure FaultReg where
  code : FaultCode
  cmd : Option CmdWord
  deriving DecidableEq, Repr

/-- P0, the session state (R32). -/
inductive SessionState where
  | uninitialized
  | deviceFound
  | noDevice
  deriving DecidableEq, Repr

/-- What the CALLER does with the results when a command it issued has returned. -/
inductive After where
  /-- Nothing. -/
  | nothing
  /-- The branch of the handshake on ACK_OK alone (R179). -/
  | branchOnAck
  /-- `IDCODE <- RDATA`, `SESSION <- DEVICE_FOUND` (R181). -/
  | storeIdcode
  deriving DecidableEq, Repr

/-- One issue of the CALLER: a command word and the value handed over beside it (R53, R60), and what
the CALLER does once the command has returned. -/
structure Issue where
  cmd : CmdWord
  wdata : DataWord
  after : After
  deriving DecidableEq, Repr

/-- A register whose value a CALLER can ask for (R28, R29, R182). -/
inductive ResultReg where
  | rdata
  | ack
  | ackOk
  | faultCmd
  | idcode
  deriving DecidableEq, Repr

/-- The machine's state. A level, result or word that may hold `?` is an Option, none being `?` (R13,
R28, R29, R33). -/
structure State where
  /-- S0 PIN_CLK (R21). -/
  pinClk : Nat
  /-- S1 PIN_DIO (R21). -/
  pinDio : Nat
  /-- The creation parameter T_HALF (R9, R230). -/
  tHalf : Nat
  /-- S2 CLK_MODE (R22). -/
  clkMode : ClkMode
  /-- S3 DIO_MODE (R23). -/
  dioMode : DioMode
  /-- S4 CLK_OUT (R24). -/
  clkOut : Option Level
  /-- S5 DIO_OUT, the output latch (R25). -/
  dioOut : Option Level
  /-- S6 DIR (R26). -/
  dir : Dir
  /-- S7 INIT_DONE (R28). -/
  initDone : Bool
  /-- S8 RDATA (R28). -/
  rdata : Option DataWord
  /-- S9 ACK (R28). -/
  ack : Option AckBits
  /-- S10 ACK_OK, the only flag (R28). -/
  ackOk : Option Bool
  /-- S11 FAULT (R29). -/
  fault : FaultReg
  /-- S12 TRACE, oldest event first (R30). -/
  trace : List Event
  /-- P0 SESSION (R32). -/
  session : SessionState
  /-- P1 IDCODE (R33). -/
  idcode : Option DataWord
  /-- P2 pc, the index of the next command the CALLER issues (R37). -/
  pc : Nat
  /-- The list of commands the CALLER issues, which pc indexes (R37). The model's own field (entry 1). -/
  program : List Issue
  /-- The levels the TARGET answers at the coming samples, the next one first (R44). The model's own
  field (entry 2). -/
  target : List Level
  /-- How many samples were taken: what the free draw is applied to where `target` is exhausted (R44).
  The model's own field (entry 2). -/
  samples : Nat
  deriving DecidableEq, Repr

/-- The stops of a step that the spec describes. -/
inductive Fault where
  /-- A fault is pending: the block performs no command and "has no further step except reset" (R205).
  Answered by every meaning and by the step while `FAULT.code != 0`; it shows the pending FAULT. Safe:
  nothing happens after it (entry 3). -/
  | stuck (code : FaultCode) (cmd : Option CmdWord)
  /-- The CALLER asked for an element that holds `?`: it gets no value (R28, R182, D19, D24). Answered by
  the readers, and by the step where the handshake's CALLER reads ACK_OK or RDATA that no command has
  written. Safe: no number is returned (entry 16). -/
  | noValue (r : ResultReg)
  deriving DecidableEq, Repr

/-- What the model refuses. No command of the opcode table is refused. -/
inductive Refusal where
  /-- An instruction without a meaning yet, by its mnemonic. Answered by no arm of this model. Safe. -/
  | notModelled (mnemonic : String)
  /-- A creation with PIN_CLK = PIN_DIO (R8): answered by `create`. Safe. -/
  | equalPins
  /-- A creation with T_HALF = 0, where R9 asks for a positive duration: answered by `create`. Safe. -/
  | zeroDelay
  /-- Instances that name a pin twice between them: such a run is not modelled (R213). Answered by
  `stepInstance`. Safe. -/
  | sharedPin
  /-- A step of an instance that does not exist (R213): answered by `stepInstance`. Safe. -/
  | noSuchBlock
  deriving DecidableEq, Repr

/-- What a step of this machine answers. -/
abbrev Result := Host.Outcome State Fault Refusal

/-- A block right after its creation with these parameters (R230), beside a CALLER that has issued
nothing (R235) and a TARGET that has drawn nothing. -/
def State.created (pinClk pinDio tHalf : Nat) : State where
  pinClk := pinClk
  pinDio := pinDio
  tHalf := tHalf
  clkMode := .unconf
  dioMode := .unconf
  clkOut := none
  dioOut := none
  dir := .unknown
  initDone := false
  rdata := none
  ack := none
  ackOk := none
  fault := ⟨.none, none⟩
  trace := []
  session := .uninitialized
  idcode := none
  pc := 0
  program := []
  target := []
  samples := 0

/-- The machine right after reset (R230, R235), with the OPEN parameters of Config. -/
def State.reset : State := State.created Config.pinClk Config.pinDio Config.tHalf

end Sys2Proof.Machine
end

