-- ==== Sys2Proof/Machine/Flags.lean ====
section
/-! DEFINITION. The block's only flag, ACK_OK (R28), and the names of the acknowledgment patterns (R161). -/

namespace Sys2Proof.Machine

/-- `ACK_OK_CODE` (R11). -/
def ackOkCode : AckBits := 0b001

/-- `ACK_OK <- (a == 0b001) ? 1 : 0` (R160). -/
def ackOkFlag (a : AckBits) : Bool := a == ackOkCode

/-- The named patterns of R161; the other five have no name. -/
inductive AckName where
  | ok
  | wait
  | fault
  | notNamed
  deriving DecidableEq, Repr

/-- The name of a raw acknowledgment (R161): what a CALLER can tell WAIT and FAULT apart by. -/
def ackName (a : AckBits) : AckName :=
  if a = 0b001 then .ok else if a = 0b010 then .wait else if a = 0b100 then .fault else .notNamed

end Sys2Proof.Machine
end

