-- ==== Sys2Proof/Machine/Operands.lean ====
section
/-! DEFINITION. The operand forms (R61, R14): bit i of a value, placing a bit of a result, the range of
a count; and the numeric encodings the spec gives the state's named values (R22, R23, R26, R29, R32). -/

namespace Sys2Proof.Machine

/-- `v[i]`, bit 0 the least significant (R14). -/
def bitOf (v : DataWord) (i : Nat) : Level := v.getLsbD i

/-- `r[i] <- d` (R145, R160): bit i becomes d, every other bit is kept. -/
def placeBit {w : Nat} (r : BitVec w) (i : Nat) (d : Level) : BitVec w :=
  if d then r ||| BitVec.twoPow w i else r &&& ~~~ BitVec.twoPow w i

/-- `MAX_LEN`, the largest count one WRITE_BITS or READ_BITS moves (R10). -/
def maxLen : Nat := 32

/-- `0 <= n <= MAX_LEN` (R48). -/
def lenInRange (n : Nat) : Bool := n ≤ maxLen

/-- The encoding of CLK_MODE (R22). -/
def clkModeBits : ClkMode → BitVec 1
  | .unconf => 0
  | .out => 1

/-- The encoding of DIO_MODE (R23). -/
def dioModeBits : DioMode → BitVec 2
  | .unconf => 0
  | .out => 1
  | .inp => 2

/-- The encoding of DIR (R26). -/
def dirBits : Dir → BitVec 2
  | .unknown => 0
  | .write => 1
  | .read => 2

/-- The 4 bits of FAULT.code (R29, R201). -/
def faultCodeBits : FaultCode → BitVec 4
  | .none => 0
  | .illegalCommand => 1
  | .notInitialized => 2
  | .lengthOutOfRange => 3
  | .dirNotWrite => 4
  | .dirNotRead => 5

/-- The encoding of SESSION (R32). -/
def sessionBits : SessionState → BitVec 2
  | .uninitialized => 0
  | .deviceFound => 1
  | .noDevice => 2

end Sys2Proof.Machine
end

