-- ==== Sys2Proof/Machine/Ops.lean ====
section
/-! DEFINITION. The named operations over the state: emitting an event (R15, R30, R31), the pseudocode
primitives Pulse and Sample (R15, R110, R44), the bit loops of WRITE_BITS, READ_BITS and READ_ACK, the
common checks in their order (R204), raising a fault (R200), the readers of the results (R28, R182)
and reset (R230, R235). There is no return from a fault (R209). -/

namespace Sys2Proof.Machine

/-! ## Events -/

/-- "Each state element follows its events" (R31). No rule gives `Mode(PIN_CLK, IN)` an effect, and no
command emits it (R101). -/
def follow : Event → State → State
  | .mode .clk .out, s => { s with clkMode := .out }
  | .mode .clk .inp, s => s
  | .mode .dio .out, s => { s with dioMode := .out }
  | .mode .dio .inp, s => { s with dioMode := .inp }
  | .set .clk l, s => { s with clkOut := some l }
  | .set .dio l, s => { s with dioOut := some l }
  | .delay, s => s
  | .sample _ _, s => s

/-- `emit E` (R15) with the state write that goes with it (R31). -/
def emit (e : Event) (s : State) : State :=
  follow e { s with trace := s.trace ++ [e] }

/-- `Pulse()`, the body of CLOCK_PULSE (R110, R15). -/
def pulse (s : State) : State :=
  emit .delay (emit (.set .clk true) (emit .delay (emit (.set .clk false) s)))

/-- `emit Set(PIN_DIO, l); S.DIO_OUT <- l` (R140, R142). -/
def driveData (l : Level) (s : State) : State := emit (.set .dio l) s

/-- `emit Mode(PIN_DIO, OUT); S.DIO_MODE <- OUT` (R100, R122). -/
def makeDataOutput (s : State) : State := emit (.mode .dio .out) s

/-- `emit Mode(PIN_DIO, IN); S.DIO_MODE <- IN` (R120, R124). The latch is kept (R25, D9; entry 8). -/
def makeDataInput (s : State) : State := emit (.mode .dio .inp) s

/-- `emit Mode(PIN_CLK, OUT); S.CLK_MODE <- OUT` (R100). -/
def makeClockOutput (s : State) : State := emit (.mode .clk .out) s

/-- `S.DIR <- d` (R26). -/
def setDir (d : Dir) (s : State) : State := { s with dir := d }

/-! ## Samples -/

/-- The TARGET's step, `draw_TARGET()` (R44): the next level laid out for it, or else the free draw
of the data line it is on, so that instances share no draw (R213). DESIGN CHOICE, safe but for a claim that
compares two runs of one data line (entries 2 and 31). -/
def drawTarget (s : State) : Level × State :=
  match s.target with
  | d :: rest => (d, { s with target := rest, samples := s.samples + 1 })
  | [] => (Config.targetDraw s.pinDio s.samples, { s with samples := s.samples + 1 })

/-- `Sample()` (R15): the draw, then its event. -/
def sample (s : State) : Level × State :=
  ((drawTarget s).1, emit (.sample .dio (drawTarget s).1) (drawTarget s).2)

/-! ## The bit loops -/

/-- The loop of WRITE_BITS (R142) for the `count` bits of `v` from bit `i` on. -/
def sendBits (v : DataWord) : (i count : Nat) → State → State
  | _, 0, s => s
  | i, count + 1, s => sendBits v (i + 1) count (pulse (driveData (bitOf v i) s))

/-- The loop of READ_BITS (R145) and READ_ACK (R160) for `count` bits into `r` from bit `i` on: each
sample comes before its own pulse. -/
def receiveBits {w : Nat} : (i count : Nat) → BitVec w → State → BitVec w × State
  | _, 0, r, s => (r, s)
  | i, count + 1, r, s =>
    receiveBits (i + 1) count (placeBit r i (sample s).1) (pulse (sample s).2)

/-! ## Faults -/

/-- `FAULT.code != 0` (R205). -/
def faultPending (s : State) : Bool := s.fault.code != .none

/-- The block is stuck: "it has no further step except reset" (R205; entry 3). -/
def stuck (s : State) : Result := .fault (.stuck s.fault.code s.fault.cmd)

/-- `raise Fault(code)` (R200): FAULT, and nothing else, is written. The machine goes on to a next state. -/
def raise (code : FaultCode) (cmd : CmdWord) (s : State) : State :=
  { s with fault := ⟨code, some cmd⟩ }

/-- Every command except INIT requires `INIT_DONE = 1` (R202, D6). -/
def checkInit (s : State) : Option FaultCode :=
  if s.initDone then none else some .notInitialized

/-- `n > 32` (R66, R142, R145). -/
def checkLength (n : Nat) : Option FaultCode :=
  if lenInRange n then none else some .lengthOutOfRange

/-- SET_DATA and WRITE_BITS require `DIR = WRITE`; UNKNOWN is not WRITE (R203, D5). -/
def checkWrite (s : State) : Option FaultCode :=
  if s.dir = .write then none else some .dirNotWrite

/-- READ_BITS and READ_ACK require `DIR = READ`; UNKNOWN is not READ (R203, D5). -/
def checkRead (s : State) : Option FaultCode :=
  if s.dir = .read then none else some .dirNotRead

/-- A decoded command runs: a pending fault stops it (R205); else the first check that applies raises its
fault before any event (R200, R204); else its pseudocode runs from top to bottom (R15). -/
def perform (i : Instr) (check : Option FaultCode) (body : State → State) (s : State) : Result :=
  if faultPending s then stuck s
  else
    match check with
    | some code => .next (raise code (encodeCmd i) s)
    | none => .next (body s)

/-! ## Reading results (R28, R53, R182)

A read changes nothing. A read of `?` yields no value (D19, D24; entry 16). -/

/-- What the CALLER gets for an element: its value, or the stop that names it. -/
def readElement {α : Type} (r : ResultReg) : Option α → Except Fault α
  | some v => .ok v
  | none => .error (.noValue r)

/-- RDATA (R28). -/
def readRdata (s : State) : Except Fault DataWord := readElement .rdata s.rdata

/-- ACK (R28). -/
def readAck (s : State) : Except Fault AckBits := readElement .ack s.ack

/-- ACK_OK (R28). -/
def readAckOk (s : State) : Except Fault Bool := readElement .ackOk s.ackOk

/-- FAULT.code, which always holds a value (R29). -/
def readFaultCode (s : State) : BitVec 4 := faultCodeBits s.fault.code

/-- FAULT.cmd (R29). -/
def readFaultCmd (s : State) : Except Fault CmdWord := readElement .faultCmd s.fault.cmd

/-- IDCODE (R182): after NO_DEVICE it yields no value, whatever an earlier handshake stored (C9, D24). -/
def readIdcode (s : State) : Except Fault DataWord :=
  if s.session = .noDevice then .error (.noValue .idcode) else readElement .idcode s.idcode

/-! ## Reset -/

/-- Reset of the block (R230): the creation of a new instance with its parameters, beside the same
CALLER and TARGET (entry 19). Equal pins are refused (R8), and a T_HALF that is not positive (R9). -/
def recreate (pinClk pinDio tHalf : Nat) (s : State) : Result :=
  if pinClk = pinDio then .refused .equalPins
  else if tHalf = 0 then .refused .zeroDelay
  else .next { State.created pinClk pinDio tHalf with
    session := s.session, idcode := s.idcode, pc := s.pc, program := s.program,
    target := s.target, samples := s.samples }

/-- Creation of a block for a CALLER that has issued nothing (R53, R230, R235). -/
def create (pinClk pinDio tHalf : Nat) : Result :=
  recreate pinClk pinDio tHalf (State.created pinClk pinDio tHalf)

/-- Reset of the reference program (R235). -/
def resetProgram (s : State) : State :=
  { s with session := .uninitialized, idcode := none, pc := 0 }

end Sys2Proof.Machine
end

