-- ==== Sys2Proof/Machine/Ack.lean ====
section
/-! DEFINITION. READ_ACK, the acknowledgment decoder (44_ack.md). -/

namespace Sys2Proof.Machine

/-- The pseudocode of READ_ACK after its check (R160): the raw pattern and the flag; RDATA is not written
(D26). No diagnostic event (R163). -/
def readAckBody (s : State) : State :=
  { (receiveBits 0 3 (0 : AckBits) s).2 with
    ack := some (receiveBits 0 3 (0 : AckBits) s).1
    ackOk := some (ackOkFlag (receiveBits 0 3 (0 : AckBits) s).1) }

/-- READ_ACK (R160): a non-OK acknowledgment is a result, not a fault (R206). -/
def execReadAck (s : State) : Result :=
  perform .readAck ((checkInit s).or (checkRead s)) readAckBody s

end Sys2Proof.Machine
end

