-- ==== Sys2Proof/Machine/BitIO.lean ====
section
/-! DEFINITION. Bit I/O (43_bit_io.md): SET_DATA, WRITE_BITS and READ_BITS. -/

namespace Sys2Proof.Machine

/-- SET_DATA l (R140): no clock, an event even where the level is already on the line (R50). -/
def execSetData (level : Level) (s : State) : Result :=
  perform (.setData level) ((checkInit s).or (checkWrite s)) (driveData level) s

/-- WRITE_BITS v, n (R142): the low n bits of v, LSB-first, one pulse per bit. -/
def execWriteBits (value : DataWord) (len : Nat) (s : State) : Result :=
  perform (.writeBits value len) ((checkInit s).or ((checkLength len).or (checkWrite s)))
    (sendBits value 0 len) s

/-- The pseudocode of READ_BITS after its checks (R145): RDATA is written once, at the end. -/
def readBitsBody (len : Nat) (s : State) : State :=
  { (receiveBits 0 len (0 : DataWord) s).2 with rdata := some (receiveBits 0 len (0 : DataWord) s).1 }

/-- READ_BITS n (R145): n samples, LSB-first, one pulse after each. -/
def execReadBits (len : Nat) (s : State) : Result :=
  perform (.readBits len) ((checkInit s).or ((checkLength len).or (checkRead s)))
    (readBitsBody len) s

end Sys2Proof.Machine
end

