-- ==== Sys2Proof/Machine/Clock.lean ====
section
/-! DEFINITION. CLOCK_PULSE, the timing primitive (41_clock.md). -/

namespace Sys2Proof.Machine

/-- CLOCK_PULSE (R110): legal with DIR in any state. -/
def execClockPulse (s : State) : Result :=
  perform .clockPulse (checkInit s) pulse s

end Sys2Proof.Machine
end

