-- ==== Sys2Proof/Machine/Direction.lean ====
section
/-! DEFINITION. Direction control (42_direction.md): the only writers of DIR after INIT. -/

namespace Sys2Proof.Machine

/-- SET_READ_MODE (R120): no clock pulse. -/
def execSetReadMode (s : State) : Result :=
  perform .setReadMode (checkInit s) (fun s => setDir .read (makeDataInput s)) s

/-- SET_WRITE_MODE (R122): the `Mode` event first, then the pulse (D7; entry 6). -/
def execSetWriteMode (s : State) : Result :=
  perform .setWriteMode (checkInit s) (fun s => pulse (setDir .write (makeDataOutput s))) s

/-- TURN_AROUND (R124): the write-to-read turnaround. -/
def execTurnAround (s : State) : Result :=
  perform .turnAround (checkInit s) (fun s => pulse (setDir .read (makeDataInput s))) s

end Sys2Proof.Machine
end

