-- ==== Sys2Proof/Machine/Setup.lean ====
section
/-! DEFINITION. INIT, pin setup (40_init.md). -/

namespace Sys2Proof.Machine

/-- The pseudocode of INIT (R100). The clock pin first: D8, entry 7. `DIR <- UNKNOWN`: D4, entry 13. No
level is driven: CLK_OUT and DIO_OUT keep what they hold (D27). -/
def initBody (s : State) : State :=
  { setDir .unknown (makeDataOutput (makeClockOutput s)) with initDone := true }

/-- INIT (R100): it does not require INIT_DONE and does not check DIR. -/
def execInit (s : State) : Result :=
  perform .init none initBody s

end Sys2Proof.Machine
end

