-- ==== Sys2Proof/Machine/Dispatch.lean ====
section
/-! DEFINITION. The meaning of each command: one arm per constructor, one meaning per arm (R63). -/

namespace Sys2Proof.Machine

def exec (i : Instr) (s : State) : Host.Outcome State Fault Refusal :=
  match i with
  | .init => Sys2Proof.Machine.execInit s
  | .clockPulse => Sys2Proof.Machine.execClockPulse s
  | .setReadMode => Sys2Proof.Machine.execSetReadMode s
  | .setWriteMode => Sys2Proof.Machine.execSetWriteMode s
  | .turnAround => Sys2Proof.Machine.execTurnAround s
  | .writeBits value len => Sys2Proof.Machine.execWriteBits value len s
  | .readBits len => Sys2Proof.Machine.execReadBits len s
  | .readAck => Sys2Proof.Machine.execReadAck s
  | .setData level => Sys2Proof.Machine.execSetData level s

end Sys2Proof.Machine
end

