-- ==== Sys2Proof/Machine/Session.lean ====
section
/-! DEFINITION. The reference program (47_session_sequence.md): the pseudo-instructions it is built from
(R70 to R76), its sequence constants (R12, R188), its list of issues (R185), and what its CALLER does
with the results (R179 to R182). It adds no state and no command to the block (R5). -/

namespace Sys2Proof.Machine

/-! ## Sequence constants (R12, R188; D31, entry 21) -/

/-- `LINE_RESET_MIN`, the required minimum (R12, R73). -/
def lineResetMin : Nat := 52

/-- `LINE_RESET_HIGH`, "52+10" (R188). -/
def lineResetHigh : Nat := lineResetMin + 10

/-- `LINE_RESET_LOW` (R188). -/
def lineResetLow : Nat := 4

/-- `WAKE_PRIME` (R188). -/
def wakePrime : Nat := 8

/-- `IDLE_BITS` (R188). -/
def idleBits : Nat := 4

/-- The 16 selection-alert bytes (R74, R188). -/
def alertBytes : List (BitVec 8) :=
  [0x92, 0xF3, 0x09, 0x62, 0x95, 0x2D, 0x85, 0x86, 0xE9, 0xAF, 0xDD, 0xE3, 0xA2, 0x0E, 0xBC, 0x19]

/-- `ACTIVATION`, the SWD activation code (R74, R188). -/
def activation : BitVec 8 := 0x1A

/-- `JTAG_TO_SWD`, the switching code (R75, R188). -/
def jtagToSwdCode : BitVec 16 := 0xE79E

/-- `REQ_IDCODE`, the whole request packet, an opaque constant (R77, R188). -/
def reqIdcodeByte : BitVec 8 := 0xA5

/-! ## Pseudo-instructions -/

/-- A line of a program: a command, or a pseudo-instruction of R70 to R76. -/
inductive Pseudo where
  /-- A command as it is. -/
  | command (i : Instr)
  /-- PULSES k (R70). -/
  | pulses (k : Nat)
  /-- IDLE k (R71). -/
  | idle (k : Nat)
  /-- WRITE_BYTES b0, ..., bm (R72). -/
  | writeBytes (bytes : List (BitVec 8))
  /-- LINE_RESET (R73). -/
  | lineReset
  /-- WAKE (R74). -/
  | wake
  /-- JTAG_TO_SWD (R75). -/
  | jtagToSwd
  /-- REQ_IDCODE (R76). -/
  | reqIdcode
  deriving DecidableEq, Repr

/-- `PULSES k` (R70). -/
def pulses (k : Nat) : List Instr := List.replicate k .clockPulse

/-- `IDLE k` (R71). -/
def idle (k : Nat) : List Instr := [.writeBits 0 k]

/-- `WRITE_BYTES`: in list order, each byte zero-extended to 32 bits (R72, R43). -/
def writeBytes (bytes : List (BitVec 8)) : List Instr :=
  bytes.map fun b => .writeBits (b.zeroExtend 32) 8

/-- `LINE_RESET` (R73; C2, D23). -/
def lineReset : List Instr :=
  [.setData true] ++ pulses lineResetHigh ++ [.setData false] ++ pulses lineResetLow ++ [.setData true]

/-- `WAKE` (R74). The priming pulses change no data (C8). -/
def wake : List Instr :=
  pulses wakePrime ++ writeBytes alertBytes ++ idle idleBits ++ writeBytes [activation]

/-- `JTAG_TO_SWD` (R75). -/
def jtagToSwd : List Instr := [.writeBits (jtagToSwdCode.zeroExtend 32) 16]

/-- `REQ_IDCODE` (R76). -/
def reqIdcode : List Instr := writeBytes [reqIdcodeByte]

/-- The commands a line stands for; a pseudo-instruction is expanded before it runs (R70 to R76). -/
def Pseudo.expand : Pseudo → List Instr
  | .command i => [i]
  | .pulses k => Sys2Proof.Machine.pulses k
  | .idle k => Sys2Proof.Machine.idle k
  | .writeBytes bytes => Sys2Proof.Machine.writeBytes bytes
  | .lineReset => Sys2Proof.Machine.lineReset
  | .wake => Sys2Proof.Machine.wake
  | .jtagToSwd => Sys2Proof.Machine.jtagToSwd
  | .reqIdcode => Sys2Proof.Machine.reqIdcode

/-! ## The CALLER's list of issues -/

/-- A command issued with nothing to do after it (R53). -/
def issueOf (i : Instr) (after : After) : Issue := ⟨encodeCmd i, encodeWdata i, after⟩

/-- Issues a list of commands, in order. -/
def issuesOf (is : List Instr) : List Issue := is.map (issueOf · .nothing)

/-- The commands of H1 to H7 (R172 to R178), numbered in the source's text order (C1). -/
def handshakePrologue : List Instr :=
  [.setWriteMode] ++ wake ++ lineReset ++ jtagToSwd ++ lineReset ++ idle idleBits ++ reqIdcode

/-- The issues of H1 to H8 (R185 rows 1 to 170); READ_ACK is followed by the branch (R179). -/
def handshakeIssues : List Issue :=
  issuesOf (handshakePrologue ++ [.turnAround]) ++ [issueOf .readAck .branchOnAck]

/-- H9 on success: READ_BITS 32, then the store (R181, R185 row 171). -/
def readIdcodeIssue : Issue := issueOf (.readBits 32) .storeIdcode

/-- The issue pc indexes (R37). -/
def nextIssue (s : State) : Option Issue := s.program[s.pc]?

/-- The list with `es` put in at index `k`; a list shorter than k is first filled up to k with issues
that are never reached (pc is past them; entry 1). -/
def putAt (k : Nat) (es program : List Issue) : List Issue :=
  program.take k ++ List.replicate (k - program.length) ⟨0, 0, .nothing⟩ ++ es ++ program.drop k

/-- The CALLER sets out to issue `es` next. -/
def placeIssues (es : List Issue) (s : State) : State :=
  { s with program := putAt s.pc es s.program }

/-- A CALLER calls `run_handshake()` (R170, R171): no INIT is among its commands (D21). -/
def callHandshake (s : State) : State := placeIssues handshakeIssues s

/-- The only conditional of the handshake, on ACK_OK alone (R179): 0 is R180, 1 is R181. -/
def branchOnAck (s : State) : Result :=
  match readAckOk s with
  | .error f => .fault f
  | .ok false => .next { s with session := .noDevice }
  | .ok true => .next (placeIssues [readIdcodeIssue] s)

/-- `IDCODE <- RDATA`, then `SESSION <- DEVICE_FOUND` (R181). -/
def storeIdcode (s : State) : Result :=
  match readRdata s with
  | .error f => .fault f
  | .ok v => .next { s with idcode := some v, session := .deviceFound }

/-- What the CALLER does when a command has returned. After a command that faulted it does nothing: the
run ends there (R205; entry 17). -/
def afterCommand (a : After) (s : State) : Result :=
  if faultPending s then .next s
  else
    match a with
    | .nothing => .next s
    | .branchOnAck => branchOnAck s
    | .storeIdcode => storeIdcode s

/-- What `run_handshake()` returns (R170). -/
inductive HandshakeResult where
  | deviceFound (idcode : DataWord)
  | noDeviceFound
  deriving DecidableEq, Repr

/-- The result a terminal session state stands for (R180, R181); none before a terminal state. -/
def handshakeResult (s : State) : Option HandshakeResult :=
  match s.session, s.idcode with
  | .deviceFound, some v => some (.deviceFound v)
  | .noDevice, _ => some .noDeviceFound
  | _, _ => none

end Sys2Proof.Machine
end

