-- ==== Sys2Proof/Machine/Link.lean ====
section
/-! DEFINITION. One step of the system (R7): the CALLER issues its next command, the LINK performs it to
completion (R49), the CALLER does what it does after it. -/

namespace Sys2Proof.Machine

/-- The LINK's step on a command word (R204): a pending fault first, then the decode check, then the
command with its own checks. -/
def linkStep (cmd : CmdWord) (wdata : DataWord) (s : State) : Result :=
  if faultPending s then stuck s
  else
    match decode cmd wdata with
    | .command i => exec i s
    | .illegal _ => .next (raise .illegalCommand cmd s)

/-- `pc` goes up by 1 for each command issued (R37). -/
def countIssue (s : State) : State := { s with pc := s.pc + 1 }

/-- One issue of the CALLER, the block's answer, and what the CALLER does after it. -/
def issueCommand (e : Issue) (s : State) : Result :=
  match linkStep e.cmd e.wdata s with
  | .next t => afterCommand e.after (countIssue t)
  | .fault f => .fault f
  | .refused r => .refused r

/-- The step. A stuck block has no further step (R205). Where the CALLER issues nothing the block does
nothing (R52, R53; entry 1). -/
def advance (s : State) : Result :=
  if faultPending s then stuck s
  else
    match nextIssue s with
    | some e => issueCommand e s
    | none => .next s

/-- The issue that hands over the word whose bits are `w`: CMD its bits 15..0, WDATA its bits 47..16. -/
def tableIssue (nbits w : Nat) : Issue :=
  ⟨BitVec.ofNat 16 (w % 2 ^ nbits), BitVec.ofNat 32 (w % 2 ^ nbits / 2 ^ 16), .nothing⟩

end Sys2Proof.Machine
end

