-- ==== Sys2Proof/Machine/Step.lean ====
section
/-! DEFINITION. The step of the machine, and how one word comes to be issued next. -/

namespace Sys2Proof.Machine

/-- One step: a next state, a stop, or a refusal. -/
def step (s : State) : Host.Outcome State Fault Refusal := advance s

/-- `s` with the instruction whose bits are `w` put in where pc indexes: the CALLER issues it next
(R37, R53; entry 1). -/
def State.withFetchWord (s : State) (nbits w : Nat) : State := placeIssues [tableIssue nbits w] s

end Sys2Proof.Machine
end

