-- ==== Sys2Proof/Machine/Assembler.lean ====
section
/-! DEFINITION. The assembler form of a command (R68), on lists of characters: the mnemonic, then its
operands separated by commas, one command a line, a comment from `;` on. A program of
spec/95_test_vectors.md may also hold the pseudo-instructions of R70 to R76, which expand here, before
they run. Spacing, the range of READ_BITS' count and the rest of what R68 leaves
open: entry 20. -/

namespace Sys2Proof.Machine

/-! ## Characters and numbers -/

/-- A space, tab or carriage return. -/
def isBlank (c : Char) : Bool := c == ' ' || c == '\t' || c == '\r'

/-- The pieces of a text between the characters that satisfy `p`. -/
def piecesBetween (p : Char → Bool) : List Char → List (List Char)
  | [] => [[]]
  | c :: cs =>
    match p c, piecesBetween p cs with
    | true, pieces => [] :: pieces
    | false, piece :: pieces => (c :: piece) :: pieces
    | false, [] => [[c]]

/-- The text without blanks at its two ends. -/
def trimBlanks (cs : List Char) : List Char :=
  ((cs.dropWhile isBlank).reverse.dropWhile isBlank).reverse

/-- The value of a digit, decimal or hexadecimal, in either case. -/
def digitValue (c : Char) : Option Nat :=
  let n := c.toNat
  if 48 ≤ n ∧ n ≤ 57 then some (n - 48)
  else if 65 ≤ n ∧ n ≤ 70 then some (n - 55)
  else if 97 ≤ n ∧ n ≤ 102 then some (n - 87)
  else none

/-- The number written by digits of a base, the most significant first, on from `acc`. -/
def readDigits (base : Nat) : (acc : Nat) → List Char → Option Nat
  | acc, [] => some acc
  | acc, c :: cs =>
    match digitValue c with
    | some d => if d < base then readDigits base (base * acc + d) cs else none
    | none => none

/-- A decimal number, of at least one digit. -/
def readDecimal : List Char → Option Nat
  | [] => none
  | c :: cs => readDigits 10 0 (c :: cs)

/-- A number: "hex with `0x` or decimal" (R68). -/
def readNumber : List Char → Option Nat
  | '0' :: 'x' :: c :: cs => readDigits 16 0 (c :: cs)
  | cs => readDecimal cs

/-- A number below a bound. -/
def below (bound : Nat) (n : Option Nat) : Option Nat :=
  match n with
  | some k => if k < bound then some k else none
  | none => none

/-- `v`, a 32-bit number (R68). -/
def readValue (cs : List Char) : Option DataWord :=
  (below (2 ^ 32) (readNumber cs)).map (BitVec.ofNat 32)

/-- The count of WRITE_BITS, "a decimal count from 0 to 32" (R68), and of IDLE (R71). -/
def readCount (cs : List Char) : Option Nat := below (maxLen + 1) (readDecimal cs)

/-- The count of READ_BITS, for which R68 gives no range: what LEN can hold (R60).
DESIGN CHOICE, safe (entry 20). -/
def readEncodableCount (cs : List Char) : Option Nat := below 64 (readDecimal cs)

/-- `l`, being 0 or 1 (R68). -/
def readLevel : List Char → Option Level
  | ['0'] => some false
  | ['1'] => some true
  | _ => none

/-- One byte of WRITE_BYTES (R72). -/
def readByte (cs : List Char) : Option (BitVec 8) :=
  (below (2 ^ 8) (readNumber cs)).map (BitVec.ofNat 8)

/-- The bytes of WRITE_BYTES, in order (R72). -/
def readBytes : List (List Char) → Option (List (BitVec 8))
  | [] => some []
  | cs :: rest =>
    match readByte cs, readBytes rest with
    | some b, some bs => some (b :: bs)
    | _, _ => none

/-! ## Lines -/

/-- The mnemonic of a command, "the source's function names in upper case" (R68). -/
def spell : Mnemonic → List Char
  | .INIT => ['I', 'N', 'I', 'T']
  | .CLOCK_PULSE => ['C', 'L', 'O', 'C', 'K', '_', 'P', 'U', 'L', 'S', 'E']
  | .SET_READ_MODE => ['S', 'E', 'T', '_', 'R', 'E', 'A', 'D', '_', 'M', 'O', 'D', 'E']
  | .SET_WRITE_MODE => ['S', 'E', 'T', '_', 'W', 'R', 'I', 'T', 'E', '_', 'M', 'O', 'D', 'E']
  | .TURN_AROUND => ['T', 'U', 'R', 'N', '_', 'A', 'R', 'O', 'U', 'N', 'D']
  | .WRITE_BITS => ['W', 'R', 'I', 'T', 'E', '_', 'B', 'I', 'T', 'S']
  | .READ_BITS => ['R', 'E', 'A', 'D', '_', 'B', 'I', 'T', 'S']
  | .READ_ACK => ['R', 'E', 'A', 'D', '_', 'A', 'C', 'K']
  | .SET_DATA => ['S', 'E', 'T', '_', 'D', 'A', 'T', 'A']

/-- The names of the pseudo-instructions (R70 to R76). -/
inductive PseudoName where
  | PULSES | IDLE | WRITE_BYTES | LINE_RESET | WAKE | JTAG_TO_SWD | REQ_IDCODE
  deriving DecidableEq, Repr

/-- The spelling of a pseudo-instruction's name (R70 to R76). -/
def spellPseudo : PseudoName → List Char
  | .PULSES => ['P', 'U', 'L', 'S', 'E', 'S']
  | .IDLE => ['I', 'D', 'L', 'E']
  | .WRITE_BYTES => ['W', 'R', 'I', 'T', 'E', '_', 'B', 'Y', 'T', 'E', 'S']
  | .LINE_RESET => ['L', 'I', 'N', 'E', '_', 'R', 'E', 'S', 'E', 'T']
  | .WAKE => ['W', 'A', 'K', 'E']
  | .JTAG_TO_SWD => ['J', 'T', 'A', 'G', '_', 'T', 'O', '_', 'S', 'W', 'D']
  | .REQ_IDCODE => ['R', 'E', 'Q', '_', 'I', 'D', 'C', 'O', 'D', 'E']

/-- All mnemonics (R63). -/
def allMnemonics : List Mnemonic :=
  [.INIT, .CLOCK_PULSE, .SET_READ_MODE, .SET_WRITE_MODE, .TURN_AROUND, .WRITE_BITS, .READ_BITS,
    .READ_ACK, .SET_DATA]

/-- All names of pseudo-instructions (R70 to R76). -/
def allPseudoNames : List PseudoName :=
  [.PULSES, .IDLE, .WRITE_BYTES, .LINE_RESET, .WAKE, .JTAG_TO_SWD, .REQ_IDCODE]

/-- A command from its mnemonic and the texts of its operands (R68). -/
def assembleCommand : Mnemonic → List (List Char) → Option Instr
  | .INIT, [] => some .init
  | .CLOCK_PULSE, [] => some .clockPulse
  | .SET_READ_MODE, [] => some .setReadMode
  | .SET_WRITE_MODE, [] => some .setWriteMode
  | .TURN_AROUND, [] => some .turnAround
  | .READ_ACK, [] => some .readAck
  | .SET_DATA, [l] => (readLevel l).map .setData
  | .READ_BITS, [n] => (readEncodableCount n).map .readBits
  | .WRITE_BITS, [v, n] =>
    match readValue v, readCount n with
    | some v, some n => some (.writeBits v n)
    | _, _ => none
  | _, _ => none

/-- A pseudo-instruction from its name and the texts of its operands (R70 to R76). -/
def assemblePseudo : PseudoName → List (List Char) → Option Pseudo
  | .PULSES, [k] => (readDecimal k).map .pulses
  | .IDLE, [k] => (readCount k).map .idle
  | .WRITE_BYTES, b :: bs => (readBytes (b :: bs)).map .writeBytes
  | .LINE_RESET, [] => some .lineReset
  | .WAKE, [] => some .wake
  | .JTAG_TO_SWD, [] => some .jtagToSwd
  | .REQ_IDCODE, [] => some .reqIdcode
  | _, _ => none

/-- The texts of the operands, separated by commas; none where nothing is left of the line. -/
def operandTexts (cs : List Char) : List (List Char) :=
  match trimBlanks cs with
  | [] => []
  | c :: rest => (piecesBetween (· == ',') (c :: rest)).map trimBlanks

/-- The line's text: what stands before a comment, without the blanks around it (R68). -/
def lineText (line : List Char) : List Char := trimBlanks (line.takeWhile (· != ';'))

/-- One line: none is an error; an empty line holds no command. -/
def assembleLine (line : List Char) : Option (List Pseudo) :=
  let text := lineText line
  let name := text.takeWhile fun c => !isBlank c
  let operands := operandTexts (text.drop name.length)
  if text = [] then some []
  else
    match allMnemonics.find? (spell · == name), allPseudoNames.find? (spellPseudo · == name) with
    | some m, _ => (assembleCommand m operands).map fun i => [.command i]
    | none, some p => (assemblePseudo p operands).map fun q => [q]
    | none, none => none

/-- The lines of a program, one after the other. -/
def assembleLines : List (List Char) → Option (List Pseudo)
  | [] => some []
  | line :: rest =>
    match assembleLine line, assembleLines rest with
    | some ps, some qs => some (ps ++ qs)
    | _, _ => none

/-- The commands of a program's text, pseudo-instructions expanded (R68, R70 to R76). -/
def assemble (text : List Char) : Option (List Instr) :=
  (assembleLines (piecesBetween (· == '\n') text)).map fun ps => ps.flatMap Pseudo.expand

/-! ## Writing a command out -/

/-- The digit of a value below 16. -/
def digitChar (d : Nat) : Char := Char.ofNat (if d < 10 then 48 + d else 55 + d)

/-- A 32-bit value in hex with `0x` (R68). -/
def writeValue (v : DataWord) : List Char :=
  '0' :: 'x' :: [7, 6, 5, 4, 3, 2, 1, 0].map fun k => digitChar (v.toNat / 16 ^ k % 16)

/-- A decimal count of one or two digits (R68). -/
def writeCount (n : Nat) : List Char :=
  if n < 10 then [digitChar n] else [digitChar (n / 10), digitChar (n % 10)]

/-- The texts of a command's operands (R68). -/
def writeOperands : Instr → List (List Char)
  | .init | .clockPulse | .setReadMode | .setWriteMode | .turnAround | .readAck => []
  | .writeBits v n => [writeValue v, writeCount n]
  | .readBits n => [writeCount n]
  | .setData l => [[if l then '1' else '0']]

/-- The operand texts with a comma and a space between them. -/
def joinOperands : List (List Char) → List Char
  | [] => []
  | [cs] => cs
  | cs :: rest => cs ++ [',', ' '] ++ joinOperands rest

/-- A command's line: "its mnemonic followed by its operands, separated by commas" (R68). -/
def writeLine (i : Instr) : List Char :=
  match writeOperands i with
  | [] => spell (mnemonicOf i)
  | ops => spell (mnemonicOf i) ++ [' '] ++ joinOperands ops

/-- A command the assembler form can write: WRITE_BITS with a count from 0 to 32 (R68), READ_BITS with
any count its word can hold (R60; entry 20), and every other command. -/
def writable : Instr → Bool
  | .writeBits _ n => lenInRange n
  | .readBits n => lenEncodable n
  | .init | .clockPulse | .setReadMode | .setWriteMode | .turnAround | .readAck | .setData _ => true

end Sys2Proof.Machine
end

