-- ==== Sys2Proof/Machine/Handshake.lean ====
section
/-! DEFINITION. `run_handshake()` run to completion (R170): the steps of one handshake on the machine. -/

namespace Sys2Proof.Machine

/-- `k` steps, ending at the first stop. -/
def steps : Nat → State → Result
  | 0, s => .next s
  | k + 1, s =>
    match step s with
    | .next t => steps k t
    | .fault f => .fault f
    | .refused r => .refused r

/-- `run_handshake()`: "it runs to either terminal state before control returns to the caller" (R170).
The steps of H1 to H8, then that of H9 where ACK_OK is 1 (R179 to R181); no timeout, no retry (R183).
A second call runs from whatever state the first left (R184). -/
def runHandshake (s : State) : Result :=
  match steps handshakeIssues.length (callHandshake s) with
  | .next t => if t.ackOk = some true then step t else .next t
  | .fault f => .fault f
  | .refused r => .refused r

end Sys2Proof.Machine
end

