-- ==== Sys2Proof/Machine/Instances.lean ====
section
/-! DEFINITION. Several block instances (R213): each with its own state and pins, sharing nothing. -/

namespace Sys2Proof.Machine

/-- No pin is named twice among the instances: the exclusivity duty (R53, R213, R244). -/
def exclusivePins (blocks : List State) : Bool :=
  decide (blocks.flatMap fun s => [s.pinClk, s.pinDio]).Nodup

/-- Instance `k` takes one step; the others are as they were. A run of instances that name the same pin
is not modelled (R213). -/
def stepInstance (k : Nat) (blocks : List State) : Host.Outcome (List State) Fault Refusal :=
  if exclusivePins blocks then
    match blocks[k]? with
    | some s =>
      match step s with
      | .next t => .next (blocks.set k t)
      | .fault f => .fault f
      | .refused r => .refused r
    | none => .refused .noSuchBlock
  else .refused .sharedPin

end Sys2Proof.Machine
end

