-- ==== Sys2Proof/Machine/Observe.lean ====
section
/-! DEFINITION. What is observed of a run (D32): the edge view of a trace (R47), its captured bits, the
pulse each sample belongs to, the calls to the HAL (R212), and what the data line carries (R25). All are
functions of the trace and the parameters alone. -/

namespace Sys2Proof.Machine

/-- One entry of the edge view (R47). -/
inductive Edge where
  /-- `H(l)`: the host drives the line at level l, which may be `?`. -/
  | host (l : Option Level)
  /-- `T`: the TARGET drives the line, or nothing does. -/
  | target
  /-- A rising edge while DIO_MODE is UNCONF, to which R47 gives no entry. No command emits one, since
  every command but INIT needs INIT_DONE (R202; entry 18). -/
  | unconfigured
  deriving DecidableEq, Repr

/-- The entry of a rising edge with this DIO_MODE and DIO_OUT (R47). -/
def edgeEntry : DioMode → Option Level → Edge
  | .out, l => .host l
  | .inp, _ => .target
  | .unconf, _ => .unconfigured

/-- The entries of a span of the trace that starts with this DIO_MODE and DIO_OUT (R47, R31). -/
def edgesFrom : DioMode → Option Level → List Event → List Edge
  | _, _, [] => []
  | _, l, .mode .dio .out :: es => edgesFrom .out l es
  | _, l, .mode .dio .inp :: es => edgesFrom .inp l es
  | m, l, .mode .clk _ :: es => edgesFrom m l es
  | m, _, .set .dio b :: es => edgesFrom m (some b) es
  | m, l, .set .clk true :: es => edgeEntry m l :: edgesFrom m l es
  | m, l, .set .clk false :: es => edgesFrom m l es
  | m, l, .delay :: es => edgesFrom m l es
  | m, l, .sample _ _ :: es => edgesFrom m l es

/-- The edge view of a trace: one entry per `Set(PIN_CLK, 1)` (R47). -/
def edgeView (trace : List Event) : List Edge := edgesFrom .unconf none trace

/-- The captured bit list: the levels of the H entries (R47). -/
def capturedBits : List Edge → List (Option Level)
  | [] => []
  | .host l :: es => l :: capturedBits es
  | .target :: es => capturedBits es
  | .unconfigured :: es => capturedBits es

/-- The sample that belongs to each rising edge, where there is one: a sample belongs to the pulse that
follows it (R47). `waiting` is the sample taken since the last rising edge. -/
def edgeSamples : (waiting : Option Level) → List Event → List (Option Level)
  | _, [] => []
  | _, .sample _ d :: es => edgeSamples (some d) es
  | w, .set .clk true :: es => w :: edgeSamples none es
  | w, .set .clk false :: es => edgeSamples w es
  | w, .set .dio _ :: es => edgeSamples w es
  | w, .mode _ _ :: es => edgeSamples w es
  | w, .delay :: es => edgeSamples w es

/-- The number of rising edges (R112). -/
def risingEdges (trace : List Event) : Nat := trace.count (.set .clk true)

/-- The number of `Delay` events (R250). -/
def delays (trace : List Event) : Nat := trace.count .delay

/-- The time a trace takes is at least this: each delay waits T_HALF (R111, R250, informative). -/
def leastTime (s : State) : Nat := delays s.trace * s.tHalf

/-- A call of one of the four HAL functions (R212). -/
inductive HalCall where
  /-- The pin-direction setter. -/
  | setPinMode (pin : Nat) (m : PinMode)
  /-- `set_pin_level(pin, level)`. -/
  | setPinLevel (pin : Nat) (l : Level)
  /-- `get_pin_level(pin) -> level`. -/
  | getPinLevel (pin : Nat) (l : Level)
  /-- The busy-wait delay. -/
  | busyWait (duration : Nat)
  deriving DecidableEq, Repr

/-- The identifier of a pin: S0 or S1 (R21). -/
def pinId (s : State) : Pin → Nat
  | .clk => s.pinClk
  | .dio => s.pinDio

/-- The HAL call an event is (R30, R212). -/
def halCall (s : State) : Event → HalCall
  | .mode p m => .setPinMode (pinId s p) m
  | .set p l => .setPinLevel (pinId s p) l
  | .delay => .busyWait s.tHalf
  | .sample p l => .getPinLevel (pinId s p) l

/-- The calls the block has made to the HAL, in order (R46, R212). -/
def halCalls (s : State) : List HalCall := s.trace.map (halCall s)

/-- What the host puts on the data line (R25). -/
inductive DataLine where
  /-- DIO_MODE = OUT: the line carries DIO_OUT. -/
  | driven (l : Option Level)
  /-- DIO_MODE = IN: the block does not drive the line. -/
  | released
  /-- The block has not configured the pin and claims nothing about it (R23). -/
  | unclaimed
  deriving DecidableEq, Repr

/-- What the host puts on the data line in this state (R25). -/
def dataLine (s : State) : DataLine :=
  match s.dioMode with
  | .out => .driven s.dioOut
  | .inp => .released
  | .unconf => .unclaimed

end Sys2Proof.Machine
end

