-- ==== Sys2Proof/Safety.lean ====
section
/-! DEFINITION. The terms claims are stated in: when a command executes normally, the events and draws
of a command written out without its loop, the lines as the trace leaves them (R31), the discipline of
the wire (R44, R45, R101, R143), the machine's invariant, and runs that differ in the TARGET only. -/

namespace Sys2Proof.Machine

/-! ## When a command executes normally -/

/-- No fault is pending and INIT has run (R202, R205). -/
abbrev Ready (s : State) : Prop := s.fault.code = .none ∧ s.initDone = true

/-- The block accepts writes (R27). -/
abbrev ReadyToWrite (s : State) : Prop := Ready s ∧ s.dir = .write

/-- The block accepts reads (R27). -/
abbrev ReadyToRead (s : State) : Prop := Ready s ∧ s.dir = .read

/-- The first check that applies after the pending fault and the decode check (R204 items 3 to 5). -/
def faultOf : Instr → State → Option FaultCode
  | .init, _ => none
  | .clockPulse, s | .setReadMode, s | .setWriteMode, s | .turnAround, s =>
    if s.initDone = false then some .notInitialized else none
  | .setData _, s =>
    if s.initDone = false then some .notInitialized
    else if s.dir ≠ .write then some .dirNotWrite else none
  | .writeBits _ n, s =>
    if s.initDone = false then some .notInitialized
    else if n > 32 then some .lengthOutOfRange
    else if s.dir ≠ .write then some .dirNotWrite else none
  | .readBits n, s =>
    if s.initDone = false then some .notInitialized
    else if n > 32 then some .lengthOutOfRange
    else if s.dir ≠ .read then some .dirNotRead else none
  | .readAck, s =>
    if s.initDone = false then some .notInitialized
    else if s.dir ≠ .read then some .dirNotRead else none

/-- The commands one after the other, ending at the first stop (R46, R49). -/
def execAll : List Instr → State → Result
  | [], s => .next s
  | i :: is, s =>
    match exec i s with
    | .next t => execAll is t
    | .fault f => .fault f
    | .refused r => .refused r

/-- The three direction commands (R26). -/
def isDirectionCommand : Instr → Bool
  | .setReadMode | .setWriteMode | .turnAround => true
  | .init | .clockPulse | .writeBits _ _ | .readBits _ | .readAck | .setData _ => false

/-! ## Events and draws, written out -/

/-- The four events of a clock pulse (R110). -/
def pulseEvents : List Event := [.set .clk false, .delay, .set .clk true, .delay]

/-- The events of WRITE_BITS v, n (R142): each bit's `Set`, then its pulse, bit 0 first. -/
def writeEvents (v : DataWord) (n : Nat) : List Event :=
  (List.range n).flatMap fun i => .set .dio (v.getLsbD i) :: pulseEvents

/-- The level the TARGET answers at the j-th sample from this state on (R44). -/
def targetLevel (s : State) (j : Nat) : Level :=
  match s.target[j]? with
  | some d => d
  | none => Config.targetDraw s.pinDio (s.samples + j)

/-- The levels of the next n samples, in time order (R44). -/
def comingLevels (s : State) (n : Nat) : List Level := (List.range n).map (targetLevel s)

/-- The events of n samples with these levels (R145, R160): each sample, then its pulse. -/
def readEvents (levels : List Level) : List Event :=
  levels.flatMap fun d => .sample .dio d :: pulseEvents

/-- The levels a span of events puts on the data line, in order (R41). -/
def levelsDriven : List Event → List Level
  | [] => []
  | .set .dio l :: es => l :: levelsDriven es
  | .set .clk _ :: es => levelsDriven es
  | .mode _ _ :: es => levelsDriven es
  | .delay :: es => levelsDriven es
  | .sample _ _ :: es => levelsDriven es

/-- The clock's level after a command with n pulses that found it at l (R24). -/
def clockAfter (n : Nat) (l : Option Level) : Option Level := if n = 0 then l else some true

/-- `v[n-1]`, the level WRITE_BITS v, n leaves on the line; with n = 0 the line keeps its level (R142). -/
def dataAfter (v : DataWord) (n : Nat) (l : Option Level) : Option Level :=
  if n = 0 then l else some (v.getLsbD (n - 1))

/-- The pulses of a performed command (R250). -/
def pulsesOf : Instr → Nat
  | .init | .setReadMode | .setData _ => 0
  | .clockPulse | .setWriteMode | .turnAround => 1
  | .writeBits _ n => n
  | .readBits n => n
  | .readAck => 3

/-- The samples of a performed command (R145, R160). -/
def samplesOf : Instr → Nat
  | .readBits n => n
  | .readAck => 3
  | .init | .clockPulse | .setReadMode | .setWriteMode | .turnAround => 0
  | .writeBits _ _ | .setData _ => 0

/-- The edge-view entries a performed command adds in a state (R47, R41, R122, R124). -/
def edgesOf : Instr → State → List Edge
  | .init, _ | .setReadMode, _ | .setData _, _ => []
  | .clockPulse, s => [edgeEntry s.dioMode s.dioOut]
  | .setWriteMode, s => [.host s.dioOut]
  | .turnAround, _ => [.target]
  | .writeBits v n, _ => (List.range n).map fun i => .host (some (v.getLsbD i))
  | .readBits n, _ => List.replicate n .target
  | .readAck, _ => List.replicate 3 .target

/-! ## The lines, as a trace leaves them (R31) -/

/-- S2 to S5: the modes and levels the block last gave its pins. -/
structure Lines where
  clkMode : ClkMode
  dioMode : DioMode
  clkOut : Option Level
  dioOut : Option Level
  deriving DecidableEq, Repr

/-- Their values after reset (R230). -/
def Lines.reset : Lines := ⟨.unconf, .unconf, none, none⟩

/-- The writes of R31, one event at a time. -/
def Lines.after (l : Lines) : Event → Lines
  | .mode .clk .out => { l with clkMode := .out }
  | .mode .clk .inp => l
  | .mode .dio .out => { l with dioMode := .out }
  | .mode .dio .inp => { l with dioMode := .inp }
  | .set .clk b => { l with clkOut := some b }
  | .set .dio b => { l with dioOut := some b }
  | .delay => l
  | .sample _ _ => l

/-- The lines a trace leaves, from reset on. -/
def replay (trace : List Event) : Lines := trace.foldl Lines.after Lines.reset

/-- S2 to S5 of a state. -/
def State.lines (s : State) : Lines := ⟨s.clkMode, s.dioMode, s.clkOut, s.dioOut⟩

/-- What the lines must be for an event to keep the discipline of the wire: the clock pin is never made
an input (R101) and never sampled (R45); a pin is driven only as an output; a sample is taken of the
data pin, while it is an input (R44); and the data pin's level and mode change, and samples are taken,
only while the clock is not low (R143, R243). -/
def Lines.admits (l : Lines) : Event → Bool
  | .mode .clk .out => true
  | .mode .clk .inp => false
  | .mode .dio _ => l.clkOut != some false
  | .set .clk _ => l.clkMode == .out
  | .set .dio _ => l.dioMode == .out && l.clkOut != some false
  | .delay => true
  | .sample .clk _ => false
  | .sample .dio _ => l.dioMode == .inp && l.clkOut != some false

/-- Every event of a span keeps the discipline, from these lines on. -/
def disciplinedFrom (l : Lines) : List Event → Bool
  | [] => true
  | e :: es => l.admits e && disciplinedFrom (l.after e) es

/-- Every event of the trace keeps the discipline of the wire. -/
def disciplined (trace : List Event) : Bool := disciplinedFrom Lines.reset trace

/-! ## The invariant -/

/-- Each of S2 to S5 is what the trace leaves (R31). -/
abbrev LinesFollowTrace (s : State) : Prop := s.lines = replay s.trace

/-- "DIR = WRITE holds exactly when DIO_MODE = OUT, and DIR = READ exactly when DIO_MODE = IN", once a
direction command has run and until the next INIT, that is while DIR is not UNKNOWN (R27). -/
abbrev DirMatchesMode (s : State) : Prop :=
  s.dir ≠ .unknown → ((s.dir = .write ↔ s.dioMode = .out) ∧ (s.dir = .read ↔ s.dioMode = .inp))

/-- Both pins are configured exactly when INIT has run (R100, R202). -/
abbrev ConfiguredByInit (s : State) : Prop :=
  (s.initDone = true ↔ s.clkMode = .out) ∧ (s.initDone = true ↔ s.dioMode ≠ .unconf)

/-- Before INIT nothing has happened: no event, no level, no direction (R100, R202). -/
abbrev UntouchedBeforeInit (s : State) : Prop :=
  s.initDone = false → s.trace = [] ∧ s.dir = .unknown

/-- Between commands the clock is not low: it is high, or `?` before the first pulse (R24, R111). -/
abbrev ClockIdlesHigh (s : State) : Prop := s.clkOut ≠ some false

/-- `ACK_OK = 1` exactly when `ACK = 0b001`, and both hold `?` together (R28, R160). -/
abbrev AckOkMatchesAck (s : State) : Prop := s.ackOk = s.ack.map (· == 0b001)

/-- FAULT.cmd holds a word exactly when FAULT.code is not 0 (R29, R200). -/
abbrev FaultNamesWord (s : State) : Prop := s.fault.code = .none ↔ s.fault.cmd = none

/-- SESSION is DEVICE_FOUND only with an IDCODE (R181). -/
abbrev FoundHasIdcode (s : State) : Prop := s.session = .deviceFound → s.idcode.isSome = true

/-- The two pins are distinct and T_HALF is positive (R8, R9). -/
abbrev GoodParameters (s : State) : Prop := s.pinClk ≠ s.pinDio ∧ 0 < s.tHalf

/-- The machine's invariant. -/
structure MachineInv (s : State) : Prop where
  linesFollowTrace : LinesFollowTrace s
  dirMatchesMode : DirMatchesMode s
  configuredByInit : ConfiguredByInit s
  untouchedBeforeInit : UntouchedBeforeInit s
  clockIdlesHigh : ClockIdlesHigh s
  ackOkMatchesAck : AckOkMatchesAck s
  faultNamesWord : FaultNamesWord s
  foundHasIdcode : FoundHasIdcode s
  goodParameters : GoodParameters s
  wireDiscipline : disciplined s.trace = true

/-! ## Runs that differ in the TARGET only -/

/-- An event without the level the TARGET answered. -/
def Event.withoutDraw : Event → Event
  | .sample p _ => .sample p false
  | .mode p m => .mode p m
  | .set p l => .set p l
  | .delay => .delay

/-- The states agree on everything but what comes from the TARGET: its coming answers, and the levels
and results sampled from it (R44, R208). -/
structure AgreeButTarget (s t : State) : Prop where
  sameButDrawn : { s with trace := [], target := [], rdata := none, ack := none, ackOk := none } =
    { t with trace := [], target := [], rdata := none, ack := none, ackOk := none }
  sameEvents : s.trace.map Event.withoutDraw = t.trace.map Event.withoutDraw

/-! ## Safe runs -/

/-- A run is safe while no fault is pending: the block is not stuck (R205). -/
abbrev Safe (s : State) : Prop := s.fault.code = .none

end Sys2Proof.Machine
end

