-- ==== Sys2Proof/Certificates/Slice0/Obligations.lean ====
section
/-! DEFINITION. The statements for the provers, from the numbered rules of the spec. `t.fault = s.fault`
beside `exec i s = .next t` says that the command was performed and raised no fault. An equation
`exec i s = .next { s with … }` gives the whole next state: every element not named in it, and every
event before those appended, is as it was. -/

open Sys2Proof Sys2Proof.Machine

/-! ## Encoding (30_encoding.md) -/

/-- Decode of encode is the command, for every command and every operand its word admits (R60 to R67). -/
def Obligations.DecodeOfEncodeIsTheCommand : Prop :=
  ∀ i : Instr, i.wellFormed = true → decode (encodeCmd i) (encodeWdata i) = .command i

/-- A decoded word is the word of its command, operand included (R60, R61, R67). -/
def Obligations.EncodeOfDecodeIsTheWord : Prop :=
  ∀ (cmd : CmdWord) (wdata : DataWord) (i : Instr), decode cmd wdata = .command i →
    encodeCmd i = cmd ∧ i.wellFormed = true ∧ ∀ v, encodeOperand i = some v → v = wdata

/-- R64 and R65: a word decodes to a command exactly when it matches that command's row; a word that
matches none, every reserved OP among them, is illegal, and raises ILLEGAL_COMMAND and does nothing
else. -/
def Obligations.WordsAreOneRowOrIllegal : Prop :=
  ∀ (cmd : CmdWord) (wdata : DataWord),
    (∀ row ∈ opcodeMap, (row.matchesWord cmd = true ↔
      ∃ i, decode cmd wdata = .command i ∧ mnemonicOf i = row.mnemonic)) ∧
    ((∀ row ∈ opcodeMap, row.matchesWord cmd = false) →
      ∀ s : State, s.fault.code = .none →
        linkStep cmd wdata s = .next { s with fault := ⟨.illegalCommand, some cmd⟩ }) ∧
    (9 ≤ (opField cmd).toNat → ∀ row ∈ opcodeMap, row.matchesWord cmd = false)

/-- The inference R65 marks as its own ("Each of the 65536 command words is exactly one of"): no word
matches two rows of the opcode map. -/
def Obligations.NoWordMatchesTwoRows : Prop :=
  ∀ (cmd : CmdWord) (row row' : OpcodeRow), row ∈ opcodeMap → row' ∈ opcodeMap →
    row.matchesWord cmd = true → row'.matchesWord cmd = true → row = row'

/-- One word of each command, written out from R63 and the vectors V-D, V-B, decodes to it. -/
def Obligations.WordsOfTheTableDecode : Prop :=
  decode 0x0000 0 = .command .init ∧ decode 0x0001 0 = .command .clockPulse ∧
  decode 0x0002 0 = .command .setReadMode ∧ decode 0x0003 0 = .command .setWriteMode ∧
  decode 0x0004 0 = .command .turnAround ∧ decode 0x0085 0xA5 = .command (.writeBits 0xA5 8) ∧
  decode 0x0206 0 = .command (.readBits 32) ∧ decode 0x0007 0 = .command .readAck ∧
  decode 0x0408 0 = .command (.setData true) ∧ decode 0x0405 0 = .illegal .unusedField ∧
  decode 0x8000 0 = .illegal .reservedBits ∧ decode 0x0009 0 = .illegal .reservedOp

/-- R66: LEN from 33 to 63 decodes, and faults when performed, before any event; LEN 0 moves no bit. -/
def Obligations.LongCountsDecodeAndFault : Prop :=
  (∀ (n : Nat) (v : DataWord), 33 ≤ n → n ≤ 63 →
    decode (0x0005 ||| lenBits n) v = .command (.writeBits v n) ∧
    decode (0x0006 ||| lenBits n) v = .command (.readBits n) ∧
    ∀ s : State, Ready s →
      exec (.writeBits v n) s = .next { s with fault := ⟨.lengthOutOfRange, some (0x0005 ||| lenBits n)⟩ } ∧
      exec (.readBits n) s = .next { s with fault := ⟨.lengthOutOfRange, some (0x0006 ||| lenBits n)⟩ }) ∧
  (∀ (v : DataWord) (s : State), ReadyToWrite s → exec (.writeBits v 0) s = .next s) ∧
  (∀ s : State, ReadyToRead s → exec (.readBits 0) s = .next { s with rdata := some 0 })

/-- The assembler form of a command reads back as the command (R68): WRITE_BITS with a count from 0 to
32, READ_BITS with any count from 0 to 63 (the model's range, entry 20), and the other seven. -/
def Obligations.AssemblerFormReadsBack : Prop :=
  ∀ i : Instr, writable i = true → assembleLine (writeLine i) = some [.command i]

/-! ## One step (R7, R37) -/

/-- A step issues the word pc indexes: it is exec of the decoded command, then pc moves past it and the
CALLER does what it does after it. -/
def Obligations.StepRunsTheDecodedCommand : Prop :=
  ∀ (s : State) (e : Issue) (i : Instr), s.fault.code = .none → s.program[s.pc]? = some e →
    decode e.cmd e.wdata = .command i →
      step s =
        match exec i s with
        | .next t => afterCommand e.after { t with pc := t.pc + 1 }
        | .fault f => .fault f
        | .refused r => .refused r

/-- A step on an illegal word raises ILLEGAL_COMMAND, before and after INIT alike; pc moves past it. -/
def Obligations.StepRaisesIllegalCommand : Prop :=
  ∀ (s : State) (e : Issue) (why : Illegal), s.fault.code = .none → s.program[s.pc]? = some e →
    decode e.cmd e.wdata = .illegal why →
      step s = .next { s with fault := ⟨.illegalCommand, some e.cmd⟩, pc := s.pc + 1 }

/-- The model's choice (entry 1): where the CALLER issues nothing, a step changes nothing. -/
def Obligations.StepIdlesWithoutAnIssue : Prop :=
  ∀ s : State, s.fault.code = .none → s.program[s.pc]? = none → step s = .next s

/-- R37: pc starts at 0, goes up by 1 for each command issued, and the block neither writes nor reads it. -/
def Obligations.PcCountsIssuedCommands : Prop :=
  State.reset.pc = 0 ∧
  (∀ (s t : State) (e : Issue), s.program[s.pc]? = some e → step s = .next t → t.pc = s.pc + 1) ∧
  (∀ (i : Instr) (s t : State) (k : Nat), exec i s = .next t →
    t.pc = s.pc ∧ exec i { s with pc := k } = .next { t with pc := k })

/-- R205: while a fault is pending no command is performed, INIT included, and the step is stuck with the
first fault, which the CALLER reads; only reset gets out of it. -/
def Obligations.PendingFaultSticksUntilReset : Prop :=
  ∀ s : State, s.fault.code ≠ .none →
    step s = .fault (.stuck s.fault.code s.fault.cmd) ∧
    (∀ i, exec i s = .fault (.stuck s.fault.code s.fault.cmd)) ∧
    (∀ cmd wdata, linkStep cmd wdata s = .fault (.stuck s.fault.code s.fault.cmd)) ∧
    readFaultCode s = faultCodeBits s.fault.code ∧
    (∀ w, s.fault.cmd = some w → readFaultCmd s = .ok w) ∧
    (∀ p q h, p ≠ q → 0 < h → ∃ t u, recreate p q h s = .next t ∧ t.fault = ⟨.none, none⟩ ∧
      exec .init t = .next u)

/-! ## INIT, CLOCK_PULSE, direction (40_init.md, 41_clock.md, 42_direction.md) -/

/-- R100: INIT, whatever INIT_DONE and DIR hold; only a pending fault stops it. The order of the two `Mode`
events and DIR's value are the spec's own choices (D8, D4; entries 7 and 13). -/
def Obligations.InitConfiguresBothPins : Prop :=
  encodeCmd .init = 0x0000 ∧
  (∀ s : State, s.fault.code = .none →
    exec .init s = .next { s with
      clkMode := .out, dioMode := .out, dir := .unknown, initDone := true
      trace := s.trace ++ [.mode .clk .out, .mode .dio .out] }) ∧
  (∀ s : State, s.fault.code ≠ .none →
    exec .init s = .fault (.stuck s.fault.code s.fault.cmd))

/-- R110: CLOCK_PULSE, with DIR in any state, and its one edge-view entry; NOT_INITIALIZED before INIT. -/
def Obligations.ClockPulseIsOneCycle : Prop :=
  encodeCmd .clockPulse = 0x0001 ∧
  (∀ s : State, Ready s → exec .clockPulse s = .next { s with
      clkOut := some true
      trace := s.trace ++ [.set .clk false, .delay, .set .clk true, .delay] }) ∧
  (∀ m l, edgesFrom m l [.set .clk false, .delay, .set .clk true, .delay] = [edgeEntry m l]) ∧
  (∀ s : State, s.fault.code = .none → s.initDone = false →
    exec .clockPulse s = .next { s with fault := ⟨.notInitialized, some 0x0001⟩ })

/-- R120: SET_READ_MODE releases the data line, with no clock; the latch is kept. -/
def Obligations.SetReadModeReleasesTheLine : Prop :=
  encodeCmd .setReadMode = 0x0002 ∧
  (∀ s : State, Ready s → exec .setReadMode s = .next { s with
      dioMode := .inp, dir := .read, trace := s.trace ++ [.mode .dio .inp] }) ∧
  (∀ s : State, s.fault.code = .none → s.initDone = false →
    exec .setReadMode s = .next { s with fault := ⟨.notInitialized, some 0x0002⟩ })

/-- R122: SET_WRITE_MODE drives the data line with the kept latch, then one pulse. That the `Mode` event
comes before the pulse is the spec's own choice (D7; entry 6), and so is that the latch is kept (D9; entry 8). -/
def Obligations.SetWriteModeDrivesThenPulses : Prop :=
  encodeCmd .setWriteMode = 0x0003 ∧
  (∀ s : State, Ready s → exec .setWriteMode s = .next { s with
      dioMode := .out, dir := .write, clkOut := some true
      trace := s.trace ++
        [.mode .dio .out, .set .clk false, .delay, .set .clk true, .delay] }) ∧
  (∀ m l, edgesFrom m l [.mode .dio .out, .set .clk false, .delay, .set .clk true, .delay] = [.host l]) ∧
  (∀ s : State, s.fault.code = .none → s.initDone = false →
    exec .setWriteMode s = .next { s with fault := ⟨.notInitialized, some 0x0003⟩ })

/-- R124: TURN_AROUND releases the data line, then one pulse. -/
def Obligations.TurnAroundReleasesThenPulses : Prop :=
  encodeCmd .turnAround = 0x0004 ∧
  (∀ s : State, Ready s → exec .turnAround s = .next { s with
      dioMode := .inp, dir := .read, clkOut := some true
      trace := s.trace ++
        [.mode .dio .inp, .set .clk false, .delay, .set .clk true, .delay] }) ∧
  (∀ m l, edgesFrom m l [.mode .dio .inp, .set .clk false, .delay, .set .clk true, .delay] = [.target]) ∧
  (∀ s : State, s.fault.code = .none → s.initDone = false →
    exec .turnAround s = .next { s with fault := ⟨.notInitialized, some 0x0004⟩ })

/-- The inference R124 marks as its own ("its trace equals the trace of SET_READ_MODE followed by
CLOCK_PULSE"), and of the whole state: TURN_AROUND completes as the two commands do. -/
def Obligations.TurnAroundIsReadModeThenPulse : Prop :=
  ∀ s : State, Ready s → ∃ t, exec .turnAround s = .next t ∧
    execAll [.setReadMode, .clockPulse] s = .next t ∧ t.fault = s.fault

/-! ## Bit I/O and the acknowledgment (43_bit_io.md, 44_ack.md) -/

/-- R140: SET_DATA drives the level, with no clock; its two faults, in their order. -/
def Obligations.SetDataDrivesTheLevel : Prop :=
  ∀ l : Level, encodeCmd (.setData l) = (if l then 0x0408 else 0x0008) ∧
  (∀ s : State, ReadyToWrite s → exec (.setData l) s = .next { s with
      dioOut := some l, trace := s.trace ++ [.set .dio l] }) ∧
  (∀ m b, edgesFrom m b [.set .dio l] = []) ∧
  (∀ s : State, s.fault.code = .none → s.initDone = false →
    exec (.setData l) s = .next { s with fault := ⟨.notInitialized, some (encodeCmd (.setData l))⟩ }) ∧
  (∀ s : State, Ready s → s.dir ≠ .write →
    exec (.setData l) s = .next { s with fault := ⟨.dirNotWrite, some (encodeCmd (.setData l))⟩ })

/-- R142, R41: WRITE_BITS sends v[0] to v[n-1] in that order, one pulse per bit; n = 0 changes nothing;
its three faults, in their order, before any event. -/
def Obligations.WriteBitsSendsLowBitsInOrder : Prop :=
  ∀ (v : DataWord) (n : Nat), encodeCmd (.writeBits v n) = 0x0005 ||| lenBits n ∧
  (∀ s : State, ReadyToWrite s → n ≤ 32 → exec (.writeBits v n) s = .next { s with
      dioOut := if n = 0 then s.dioOut else some (v.getLsbD (n - 1))
      clkOut := if n = 0 then s.clkOut else some true
      trace := s.trace ++ (List.range n).flatMap fun i =>
        [.set .dio (v.getLsbD i), .set .clk false, .delay, .set .clk true, .delay] }) ∧
  (∀ s : State, s.fault.code = .none → s.initDone = false →
    exec (.writeBits v n) s = .next { s with fault := ⟨.notInitialized, some (0x0005 ||| lenBits n)⟩ }) ∧
  (∀ s : State, Ready s → n > 32 →
    exec (.writeBits v n) s = .next { s with fault := ⟨.lengthOutOfRange, some (0x0005 ||| lenBits n)⟩ }) ∧
  (∀ s : State, Ready s → n ≤ 32 → s.dir ≠ .write →
    exec (.writeBits v n) s = .next { s with fault := ⟨.dirNotWrite, some (0x0005 ||| lenBits n)⟩ })

/-- R145: READ_BITS takes n samples, each before its own pulse; the k-th lands in bit k of RDATA and
bits n to 31 are 0; ACK and ACK_OK are kept; its three faults, in their order, before any event. -/
def Obligations.ReadBitsAssemblesSamplesInOrder : Prop :=
  ∀ n : Nat, encodeCmd (.readBits n) = 0x0006 ||| lenBits n ∧
  (∀ s : State, ReadyToRead s → n ≤ 32 → ∃ r : DataWord,
    (∀ k < 32, r.getLsbD k = (decide (k < n) && targetLevel s k)) ∧
    exec (.readBits n) s = .next { s with
      rdata := some r
      clkOut := if n = 0 then s.clkOut else some true
      target := s.target.drop n
      samples := s.samples + n
      trace := s.trace ++ (List.range n).flatMap fun k =>
        [.sample .dio (targetLevel s k), .set .clk false, .delay, .set .clk true, .delay] }) ∧
  (∀ s : State, s.fault.code = .none → s.initDone = false →
    exec (.readBits n) s = .next { s with fault := ⟨.notInitialized, some (0x0006 ||| lenBits n)⟩ }) ∧
  (∀ s : State, Ready s → n > 32 →
    exec (.readBits n) s = .next { s with fault := ⟨.lengthOutOfRange, some (0x0006 ||| lenBits n)⟩ }) ∧
  (∀ s : State, Ready s → n ≤ 32 → s.dir ≠ .read →
    exec (.readBits n) s = .next { s with fault := ⟨.dirNotRead, some (0x0006 ||| lenBits n)⟩ })

/-- R146: the value READ_BITS n assembles is the sum of the draws at their places, below 2^n. -/
def Obligations.ReadValueIsTheSumOfDraws : Prop :=
  ∀ (n : Nat) (s : State), ReadyToRead s → n ≤ 32 → ∃ t r,
    exec (.readBits n) s = .next t ∧ t.rdata = some r ∧
    r.toNat = ((List.range n).map fun i => (targetLevel s i).toNat <<< i).sum ∧
    r.extractLsb' n (32 - n) = 0 ∧ r.toNat < 2 ^ n

/-- R160: READ_ACK takes exactly three samples, each before its own pulse; the first is bit 0 of ACK, and
ACK_OK is 1 exactly when they are 1, 0, 0; RDATA is kept; its two faults, in their order. -/
def Obligations.ReadAckDecodesThreeSamples : Prop :=
  encodeCmd .readAck = 0x0007 ∧
  (∀ s : State, ReadyToRead s → ∃ a : AckBits,
    a.getLsbD 0 = targetLevel s 0 ∧ a.getLsbD 1 = targetLevel s 1 ∧ a.getLsbD 2 = targetLevel s 2 ∧
    exec .readAck s = .next { s with
      ack := some a
      ackOk := some (targetLevel s 0 && !targetLevel s 1 && !targetLevel s 2)
      clkOut := some true
      target := s.target.drop 3
      samples := s.samples + 3
      trace := s.trace ++ [0, 1, 2].flatMap fun k =>
        [.sample .dio (targetLevel s k), .set .clk false, .delay, .set .clk true, .delay] }) ∧
  (∀ s : State, s.fault.code = .none → s.initDone = false →
    exec .readAck s = .next { s with fault := ⟨.notInitialized, some 0x0007⟩ }) ∧
  (∀ s : State, Ready s → s.dir ≠ .read →
    exec .readAck s = .next { s with fault := ⟨.dirNotRead, some 0x0007⟩ })

/-- R161: the raw value kept in ACK, its name and ACK_OK for each three draws. -/
def Obligations.AckPatternsAreNamedAsListed : Prop :=
  ∀ s t : State, ReadyToRead s → exec .readAck s = .next t →
    (∃ a : AckBits, t.ack = some a ∧ ∀ k < 3, a.getLsbD k = targetLevel s k) ∧
    (comingLevels s 3 = [true, false, false] →
      t.ack = some 0b001 ∧ t.ackOk = some true ∧ t.ack.map ackName = some .ok) ∧
    (comingLevels s 3 = [false, true, false] →
      t.ack = some 0b010 ∧ t.ackOk = some false ∧ t.ack.map ackName = some .wait) ∧
    (comingLevels s 3 = [false, false, true] →
      t.ack = some 0b100 ∧ t.ackOk = some false ∧ t.ack.map ackName = some .fault) ∧
    (comingLevels s 3 ∉ [[true, false, false], [false, true, false], [false, false, true]] →
      t.ackOk = some false ∧ t.ack.map ackName = some .notNamed)

/-- R162: READ_ACK and READ_BITS 3, given the same draws, differ only in the results they write. -/
def Obligations.ReadAckIsReadBitsThree : Prop :=
  ∀ s : State, ReadyToRead s → ∃ t u r,
    exec .readAck s = .next t ∧ exec (.readBits 3) s = .next u ∧ t.trace = u.trace ∧
    u.rdata = some r ∧ t.ack = some (r.extractLsb' 0 3) ∧
    { t with ack := s.ack, ackOk := s.ackOk } = { u with rdata := s.rdata }

/-- R147: over a loopback (the coming draws are the levels WRITE_BITS put on the line), the low n bits of
what was written are what is read, whatever direction commands stand in between. -/
def Obligations.LoopbackReadsWhatWasWritten : Prop :=
  ∀ (v : DataWord) (n : Nat) (s t u : State) (turn : List Instr), ReadyToWrite s → n ≤ 32 →
    exec (.writeBits v n) s = .next t →
    (∀ i ∈ turn, isDirectionCommand i = true) → execAll turn t = .next u → u.dir = .read →
    comingLevels u n = levelsDriven (t.trace.drop s.trace.length) →
    ∃ w, exec (.readBits n) u = .next w ∧ w.rdata = some (BitVec.ofNat 32 (v.toNat % 2 ^ n))

/-! ## Faults (60_exceptions.md) -/

/-- R202: every command except INIT faults while INIT_DONE is 0, and INIT does not. -/
def Obligations.CommandsBeforeInitFault : Prop :=
  ∀ s : State, s.fault.code = .none → s.initDone = false →
    (∀ i : Instr, i ≠ .init →
      exec i s = .next { s with fault := ⟨.notInitialized, some (encodeCmd i)⟩ }) ∧
    (∃ t, exec .init s = .next t ∧ t.fault = s.fault ∧ t.initDone = true)

/-- R203: the direction checks, UNKNOWN failing both, and the five commands that have none. -/
def Obligations.DirectionIsChecked : Prop :=
  ∀ s : State, Ready s →
    (s.dir ≠ .write →
      (∀ l, exec (.setData l) s = .next { s with fault := ⟨.dirNotWrite, some (encodeCmd (.setData l))⟩ }) ∧
      (∀ v n, n ≤ 32 →
        exec (.writeBits v n) s = .next { s with fault := ⟨.dirNotWrite, some (encodeCmd (.writeBits v n))⟩ })) ∧
    (s.dir ≠ .read →
      (∀ n, n ≤ 32 →
        exec (.readBits n) s = .next { s with fault := ⟨.dirNotRead, some (encodeCmd (.readBits n))⟩ }) ∧
      exec .readAck s = .next { s with fault := ⟨.dirNotRead, some (encodeCmd .readAck)⟩ }) ∧
    (∀ i ∈ [Instr.clockPulse, .setReadMode, .setWriteMode, .turnAround, .init],
      ∃ t, exec i s = .next t ∧ t.fault = s.fault)

/-- R204: the checks in their order, the first that applies the only fault reported; a command none of
them applies to is performed. -/
def Obligations.ChecksRunInOrder : Prop :=
  ∀ (cmd : CmdWord) (wdata : DataWord) (s : State),
    (s.fault.code ≠ .none → linkStep cmd wdata s = .fault (.stuck s.fault.code s.fault.cmd)) ∧
    (s.fault.code = .none →
      (∀ why, decode cmd wdata = .illegal why →
        linkStep cmd wdata s = .next { s with fault := ⟨.illegalCommand, some cmd⟩ }) ∧
      (∀ i c, decode cmd wdata = .command i → faultOf i s = some c →
        linkStep cmd wdata s = .next { s with fault := ⟨c, some cmd⟩ }) ∧
      (∀ i, decode cmd wdata = .command i → faultOf i s = none →
        ∃ t, linkStep cmd wdata s = .next t ∧ t.fault = s.fault))

/-- R200: a fault is precise: the state is the one before the command, plus FAULT. -/
def Obligations.FaultsArePrecise : Prop :=
  ∀ (i : Instr) (s t : State), exec i s = .next t → t.fault ≠ s.fault →
    t = { s with fault := t.fault } ∧ t.fault.code ≠ .none ∧ t.fault.cmd = some (encodeCmd i)

/-- The codes of R201 in the 4 bits of R29. -/
def Obligations.FaultCodesAreNumberedAsListed : Prop :=
  faultCodeBits .none = 0 ∧ faultCodeBits .illegalCommand = 1 ∧ faultCodeBits .notInitialized = 2 ∧
  faultCodeBits .lengthOutOfRange = 3 ∧ faultCodeBits .dirNotWrite = 4 ∧ faultCodeBits .dirNotRead = 5 ∧
  ∀ c, faultCodeBits c < 6

/-! ## Who writes what (10_state.md) -/

/-- R22: INIT writes OUT to CLK_MODE, and no other command writes it. -/
def Obligations.OnlyInitWritesClkMode : Prop :=
  clkModeBits .unconf = 0 ∧ clkModeBits .out = 1 ∧ State.reset.clkMode = .unconf ∧
  (∀ s t : State, exec .init s = .next t → t.clkMode = .out) ∧
  (∀ (i : Instr) (s t : State), i ≠ .init → exec i s = .next t → t.clkMode = s.clkMode)

/-- R23: INIT and SET_WRITE_MODE write OUT to DIO_MODE, SET_READ_MODE and TURN_AROUND write IN, and no
other command writes it. -/
def Obligations.WritersOfDioMode : Prop :=
  dioModeBits .unconf = 0 ∧ dioModeBits .out = 1 ∧ dioModeBits .inp = 2 ∧ State.reset.dioMode = .unconf ∧
  ∀ (i : Instr) (s t : State), exec i s = .next t →
    t.dioMode =
      if t.fault ≠ s.fault then s.dioMode
      else if i = .init ∨ i = .setWriteMode then .out
      else if i = .setReadMode ∨ i = .turnAround then .inp
      else s.dioMode

/-- R24: only a clock pulse writes CLK_OUT, and it ends at 1. -/
def Obligations.OnlyPulsesWriteClkOut : Prop :=
  State.reset.clkOut = none ∧
  ∀ (i : Instr) (s t : State), exec i s = .next t →
    t.clkOut = if t.fault ≠ s.fault ∨ pulsesOf i = 0 then s.clkOut else some true

/-- R25: only SET_DATA and WRITE_BITS write DIO_OUT, so a direction change keeps it; the line carries it
while DIO_MODE is OUT, and is not driven while IN. -/
def Obligations.OnlyWritesChangeTheLatch : Prop :=
  State.reset.dioOut = none ∧
  (∀ (i : Instr) (s t : State), exec i s = .next t → t.fault = s.fault →
    t.dioOut =
      match i with
      | .setData l => some l
      | .writeBits v n => if n = 0 then s.dioOut else some (v.getLsbD (n - 1))
      | _ => s.dioOut) ∧
  (∀ s : State, (s.dioMode = .out → dataLine s = .driven s.dioOut) ∧
    (s.dioMode = .inp → dataLine s = .released))

/-- R26: the table of what is written to DIR. -/
def Obligations.WritersOfDir : Prop :=
  dirBits .unknown = 0 ∧ dirBits .write = 1 ∧ dirBits .read = 2 ∧ State.reset.dir = .unknown ∧
  ∀ (i : Instr) (s t : State), exec i s = .next t → t.fault = s.fault →
    t.dir =
      match i with
      | .init => .unknown
      | .setWriteMode => .write
      | .setReadMode | .turnAround => .read
      | _ => s.dir

/-- R28: the writers of INIT_DONE, RDATA, ACK and ACK_OK, the meaning of ACK_OK, and the CALLER's reads,
which yield no value for `?`. -/
def Obligations.ResultsHaveOneWriter : Prop :=
  (State.reset.initDone = false ∧ State.reset.rdata = none ∧ State.reset.ack = none ∧
    State.reset.ackOk = none) ∧
  (∀ (i : Instr) (s t : State), exec i s = .next t →
    (i = .init → t.initDone = true) ∧ (i ≠ .init → t.initDone = s.initDone) ∧
    ((∀ n, i ≠ .readBits n) → t.rdata = s.rdata) ∧
    (i ≠ .readAck → t.ack = s.ack ∧ t.ackOk = s.ackOk) ∧
    (i = .readAck → t.fault = s.fault → ∃ a, t.ack = some a ∧ (t.ackOk = some true ↔ a = 0b001))) ∧
  (∀ s : State,
    (s.rdata = none → readRdata s = .error (.noValue .rdata)) ∧
    (s.ack = none → readAck s = .error (.noValue .ack)) ∧
    (s.ackOk = none → readAckOk s = .error (.noValue .ackOk)) ∧
    (∀ v, s.rdata = some v → readRdata s = .ok v) ∧ (∀ v, s.ack = some v → readAck s = .ok v) ∧
    (∀ v, s.ackOk = some v → readAckOk s = .ok v))

/-- What no command touches: the parameters, the CALLER's state and list, and the TARGET's coming answers
but for those it samples (R21, R32, R33, R37, R44). -/
def Obligations.CommandsLeaveCallerAndParameters : Prop :=
  ∀ (i : Instr) (s t : State), exec i s = .next t →
    t.pinClk = s.pinClk ∧ t.pinDio = s.pinDio ∧ t.tHalf = s.tHalf ∧ t.session = s.session ∧
    t.idcode = s.idcode ∧ t.pc = s.pc ∧ t.program = s.program ∧
    (t.fault = s.fault →
      t.target = s.target.drop (samplesOf i) ∧ t.samples = s.samples + samplesOf i) ∧
    (t.fault ≠ s.fault → t.target = s.target ∧ t.samples = s.samples)

/-! ## The trace (R30, R46, R47, R112) -/

/-- A step appends events only, and so does the list of calls to the HAL. -/
def Obligations.TraceOnlyGrows : Prop :=
  ∀ s t : State, step s = .next t →
    ∃ es, t.trace = s.trace ++ es ∧ halCalls t = halCalls s ++ es.map (halCall s)

/-- R112, R250: each performed command adds one rising edge and two delays per pulse, and no others. -/
def Obligations.RisingEdgesComeFromPulses : Prop :=
  ∀ (i : Instr) (s t : State), exec i s = .next t → t.fault = s.fault →
    risingEdges t.trace = risingEdges s.trace + pulsesOf i ∧
    delays t.trace = delays s.trace + 2 * pulsesOf i

/-- R47, R41: what a logic analyser records of each performed command, from any state that meets the
invariant. -/
def Obligations.EdgeViewOfEachCommand : Prop :=
  ∀ (i : Instr) (s t : State), MachineInv s → exec i s = .next t → t.fault = s.fault →
    edgeView t.trace = edgeView s.trace ++ edgesOf i s

/-- R27: a bit is never written unless DIR is WRITE, nor read unless DIR is READ; and DIR keeps matching
DIO_MODE. -/
def Obligations.BitsFollowTheDirection : Prop :=
  (∀ (i : Instr) (s t : State) (es : List Event), exec i s = .next t → t.trace = s.trace ++ es →
    (∀ l, Event.set .dio l ∈ es → s.dir = .write) ∧ (∀ p l, Event.sample p l ∈ es → s.dir = .read)) ∧
  (∀ s t : State, DirMatchesMode s → step s = .next t → DirMatchesMode t)

/-- R101: only INIT configures the clock pin, which is never made an input and never read. -/
def Obligations.ClockPinIsOnlyAnOutput : Prop :=
  ∀ (i : Instr) (s t : State) (es : List Event), exec i s = .next t → t.trace = s.trace ++ es →
    (∀ m, Event.mode .clk m ∈ es → i = .init ∧ m = .out) ∧ (∀ l, Event.sample .clk l ∉ es)

/-- R44, R208: nothing of the TARGET reaches the block except the levels sampled: two states that differ
in the TARGET only stay so, command by command. -/
def Obligations.TargetReachesOnlyTheResults : Prop :=
  ∀ (i : Instr) (s t s' : State), AgreeButTarget s t → exec i s = .next s' →
    ∃ t', exec i t = .next t' ∧ AgreeButTarget s' t'

/-! ## Invariants -/

/-- R31: each of CLK_MODE, DIO_MODE, CLK_OUT and DIO_OUT stays what the events of the trace make it. -/
def Obligations.ElementsFollowTheirEvents : Prop :=
  ∀ s t : State, LinesFollowTrace s → step s = .next t → LinesFollowTrace t

/-- Every step keeps the invariant: the lines follow the trace (R31), DIR matches DIO_MODE (R27), the
pins are configured exactly after INIT (R100, R202), the clock idles high (R111), ACK_OK matches ACK
(R28), FAULT.cmd matches FAULT.code (R29), DEVICE_FOUND has its IDCODE (R181), the parameters are good
(R8, R9), and the whole trace keeps the discipline of the wire (R44, R45, R101, R143). -/
def Obligations.EveryStepKeepsTheInvariant : Prop :=
  ∀ s t : State, MachineInv s → step s = .next t → MachineInv t

/-- The invariant holds after reset, and after every creation that is not refused. -/
def Obligations.ResetMeetsTheInvariant : Prop :=
  MachineInv State.reset ∧ ∀ p q h t, create p q h = .next t → MachineInv t

/-! ## Reset and results (70_reset_and_hazards.md, 47_session_sequence.md) -/

/-- R230: reset writes every element of the block its reset value and emits no event; the CALLER's and
the TARGET's side stands beside it (the model's choice, entry 19). -/
def Obligations.ResetWritesEveryElement : Prop :=
  ∀ (p q h : Nat) (s : State), p ≠ q → 0 < h →
    recreate p q h s = .next { s with
      pinClk := p, pinDio := q, tHalf := h, clkMode := .unconf, dioMode := .unconf, clkOut := none
      dioOut := none, dir := .unknown, initDone := false, rdata := none, ack := none, ackOk := none
      fault := ⟨.none, none⟩, trace := [] }

/-- R8: a configuration with equal pins is refused, and the reset configuration has distinct pins. -/
def Obligations.EqualPinsAreRefused : Prop :=
  (∀ (p h : Nat) (s : State), recreate p p h s = .refused .equalPins) ∧
  State.reset.pinClk ≠ State.reset.pinDio

/-- R235: reset of the reference program, and SESSION, IDCODE and pc after reset. -/
def Obligations.ProgramResetValues : Prop :=
  (∀ s : State, resetProgram s = { s with session := .uninitialized, idcode := none, pc := 0 }) ∧
  State.reset.session = .uninitialized ∧ State.reset.idcode = none ∧ State.reset.pc = 0

/-- R179, R180: the step of READ_ACK with the branch after it: on any draws but 1, 0, 0 SESSION becomes
NO_DEVICE, IDCODE is not written and the list of issues stays as it is; on 1, 0, 0 the next issue is
READ_BITS 32 with the store after it, and neither is written. -/
def Obligations.AckBranchDecidesTheSession : Prop :=
  ∀ s : State, ReadyToRead s → s.program[s.pc]? = some ⟨0x0007, 0, .branchOnAck⟩ → ∃ t,
    step s = .next t ∧ t.pc = s.pc + 1 ∧ t.idcode = s.idcode ∧ t.fault = s.fault ∧
    (comingLevels s 3 ≠ [true, false, false] →
      t.session = .noDevice ∧ t.program = s.program ∧ handshakeResult t = some .noDeviceFound) ∧
    (comingLevels s 3 = [true, false, false] →
      t.session = s.session ∧ t.program[t.pc]? = some ⟨0x0206, 0, .storeIdcode⟩)

/-- R181: the step of READ_BITS 32 with the store after it: IDCODE is the 32 draws, SESSION is
DEVICE_FOUND, and the handshake returns that value. -/
def Obligations.StoreMakesTheDeviceFound : Prop :=
  ∀ s : State, ReadyToRead s → s.program[s.pc]? = some ⟨0x0206, 0, .storeIdcode⟩ → ∃ t r,
    step s = .next t ∧ t.pc = s.pc + 1 ∧ (∀ k < 32, r.getLsbD k = targetLevel s k) ∧
    t.rdata = some r ∧ t.idcode = some r ∧ t.session = .deviceFound ∧ t.dir = .read ∧
    handshakeResult t = some (.deviceFound r)

/-- R182: IDCODE reads as its value after DEVICE_FOUND, and yields no value after NO_DEVICE, nor while it
holds `?` (R28, R33). -/
def Obligations.IdcodeReadsWhenFoundAndNotAfterNoDevice : Prop :=
  (∀ (s : State) (v : DataWord), s.session = .deviceFound → s.idcode = some v → readIdcode s = .ok v) ∧
  (∀ s : State, s.session = .noDevice → readIdcode s = .error (.noValue .idcode)) ∧
  (∀ s : State, s.idcode = none → readIdcode s = .error (.noValue .idcode))

/-- R213: a step of one instance leaves every other instance as it was, and the pins stay exclusive. -/
def Obligations.InstancesShareNothing : Prop :=
  ∀ (k : Nat) (bs bs' : List State), stepInstance k bs = .next bs' →
    bs'.length = bs.length ∧ (∀ j, j ≠ k → bs'[j]? = bs[j]?) ∧ exclusivePins bs' = true ∧
    ∃ s t, bs[k]? = some s ∧ bs'[k]? = some t ∧ step s = .next t
end

