-- ==== Sys2Proof/Laws/Decode.lean ====
section
/-! SUPPORT. The four fields of a command word (R60): they determine the word, and what they are in an
encoded command. -/

namespace Sys2Proof

/-- A command word is its four fields side by side (R60). -/
theorem cmd_toNat (cmd : CmdWord) :
    cmd.toNat = (opField cmd).toNat + 16 * (lenField cmd).toNat + 1024 * (lvlField cmd).toNat +
      2048 * (resField cmd).toNat := by
  have hlvl : (lvlField cmd).toNat = cmd.toNat / 1024 % 2 := by
    have h := Nat.mod_two_eq_zero_or_one (cmd.toNat / 1024)
    simp only [lvlField, BitVec.getLsbD, Nat.testBit_eq_decide_div_mod_eq]
    rcases h with h | h <;> simp [h]
  simp only [hlvl, opField, lenField, resField, BitVec.extractLsb'_toNat, Nat.shiftRight_eq_div_pow]
  have := cmd.isLt
  omega

/-- Words with the same four fields are the same word. -/
theorem cmd_ext {c d : CmdWord} (hop : opField c = opField d) (hlen : lenField c = lenField d)
    (hlvl : lvlField c = lvlField d) (hres : resField c = resField d) : c = d := by
  apply BitVec.eq_of_toNat_eq
  rw [cmd_toNat c, cmd_toNat d, hop, hlen, hlvl, hres]

theorem opField_lenBits (op : BitVec 4) (n : Nat) : opField (op.zeroExtend 16 ||| lenBits n) = op := by
  have h : ∀ (op : BitVec 4) (f : BitVec 6), opField (op.zeroExtend 16 ||| f.zeroExtend 16 <<< 4) = op := by
    decide
  exact h op _

theorem lenField_lenBits (op : BitVec 4) (n : Nat) :
    lenField (op.zeroExtend 16 ||| lenBits n) = BitVec.ofNat 6 n := by
  have h : ∀ (op : BitVec 4) (f : BitVec 6), lenField (op.zeroExtend 16 ||| f.zeroExtend 16 <<< 4) = f := by
    decide
  exact h op _

theorem lvlField_lenBits (op : BitVec 4) (n : Nat) :
    lvlField (op.zeroExtend 16 ||| lenBits n) = false := by
  have h : ∀ (op : BitVec 4) (f : BitVec 6), lvlField (op.zeroExtend 16 ||| f.zeroExtend 16 <<< 4) = false := by
    decide
  exact h op _

theorem resField_lenBits (op : BitVec 4) (n : Nat) : resField (op.zeroExtend 16 ||| lenBits n) = 0 := by
  have h : ∀ (op : BitVec 4) (f : BitVec 6), resField (op.zeroExtend 16 ||| f.zeroExtend 16 <<< 4) = 0 := by
    decide
  exact h op _

/-- OP of each command's word (R63). -/
def opCode : Instr → BitVec 4
  | .init => 0x0
  | .clockPulse => 0x1
  | .setReadMode => 0x2
  | .setWriteMode => 0x3
  | .turnAround => 0x4
  | .writeBits _ _ => 0x5
  | .readBits _ => 0x6
  | .readAck => 0x7
  | .setData _ => 0x8

theorem encodeCmd_writeBits (v : DataWord) (n : Nat) :
    encodeCmd (.writeBits v n) = (0x5 : BitVec 4).zeroExtend 16 ||| lenBits n := rfl

theorem encodeCmd_readBits (n : Nat) :
    encodeCmd (.readBits n) = (0x6 : BitVec 4).zeroExtend 16 ||| lenBits n := rfl

theorem opField_encodeCmd (i : Instr) : opField (encodeCmd i) = opCode i := by
  cases i with
  | writeBits v n => rw [encodeCmd_writeBits, opField_lenBits]; rfl
  | readBits n => rw [encodeCmd_readBits, opField_lenBits]; rfl
  | setData l => cases l <;> rfl
  | _ => rfl

theorem resField_encodeCmd (i : Instr) : resField (encodeCmd i) = 0 := by
  cases i with
  | writeBits v n => rw [encodeCmd_writeBits, resField_lenBits]
  | readBits n => rw [encodeCmd_readBits, resField_lenBits]
  | setData l => cases l <;> rfl
  | _ => rfl

/-- LEN is the count where the command uses it, and 0 elsewhere (R64). -/
theorem lenField_encodeCmd (i : Instr) :
    lenField (encodeCmd i) =
      match i with
      | .writeBits _ n => BitVec.ofNat 6 n
      | .readBits n => BitVec.ofNat 6 n
      | _ => 0 := by
  cases i with
  | writeBits v n => rw [encodeCmd_writeBits, lenField_lenBits]
  | readBits n => rw [encodeCmd_readBits, lenField_lenBits]
  | setData l => cases l <;> rfl
  | _ => rfl

/-- LVL is the level where the command uses it, and 0 elsewhere (R64). -/
theorem lvlField_encodeCmd (i : Instr) :
    lvlField (encodeCmd i) =
      match i with
      | .setData l => l
      | _ => false := by
  cases i with
  | writeBits v n => rw [encodeCmd_writeBits, lvlField_lenBits]
  | readBits n => rw [encodeCmd_readBits, lvlField_lenBits]
  | setData l => cases l <;> rfl
  | _ => rfl

end Sys2Proof
end

