-- ==== Sys2Proof/Laws/Instances.lean ====
section
/-! SUPPORT. What exclusive pins give several instances (R213): data lines, and with them free draws, of
their own. -/

namespace Sys2Proof.Machine

/-- Two instances with exclusive pins are on different data lines. -/
theorem exclusivePins_pinDio_ne {blocks : List State} (h : exclusivePins blocks = true) {j k : Nat}
    (hjk : j ≠ k) {s t : State} (hs : blocks[j]? = some s) (ht : blocks[k]? = some t) :
    s.pinDio ≠ t.pinDio := by
  have hp := (List.nodup_flatMap.mp (of_decide_eq_true h)).2
  obtain ⟨hj, rfl⟩ := List.getElem?_eq_some_iff.mp hs
  obtain ⟨hk, rfl⟩ := List.getElem?_eq_some_iff.mp ht
  intro e
  rcases Nat.lt_or_gt_of_ne hjk with hlt | hlt
  · exact List.pairwise_iff_getElem.mp hp j k hj hk hlt
      (show blocks[j].pinDio ∈ [_, _] by simp) (by simp [e])
  · exact List.pairwise_iff_getElem.mp hp k j hk hj hlt
      (show blocks[k].pinDio ∈ [_, _] by simp) (by simp [e])

/-- Where no answer is laid out, an instance's draw is the free draw of its own data line. -/
theorem drawTarget_free {s : State} (h : s.target = []) :
    (drawTarget s).1 = Config.targetDraw s.pinDio s.samples := by
  simp [drawTarget, h]

end Sys2Proof.Machine
end

