-- ==== Sys2Proof/Laws/State.lean ====
section
/-! SUPPORT. One lemma per field per named update of the state, true by rfl: what each update writes and
what it leaves (R22 to R31, R37, R200). -/

namespace Sys2Proof.Machine

/-! ## pulse -/

@[simp] theorem pulse_pinClk (s : State) : (pulse s).pinClk = s.pinClk := rfl
@[simp] theorem pulse_pinDio (s : State) : (pulse s).pinDio = s.pinDio := rfl
@[simp] theorem pulse_tHalf (s : State) : (pulse s).tHalf = s.tHalf := rfl
@[simp] theorem pulse_clkMode (s : State) : (pulse s).clkMode = s.clkMode := rfl
@[simp] theorem pulse_dioMode (s : State) : (pulse s).dioMode = s.dioMode := rfl
@[simp] theorem pulse_clkOut (s : State) : (pulse s).clkOut = some true := rfl
@[simp] theorem pulse_dioOut (s : State) : (pulse s).dioOut = s.dioOut := rfl
@[simp] theorem pulse_dir (s : State) : (pulse s).dir = s.dir := rfl
@[simp] theorem pulse_initDone (s : State) : (pulse s).initDone = s.initDone := rfl
@[simp] theorem pulse_rdata (s : State) : (pulse s).rdata = s.rdata := rfl
@[simp] theorem pulse_ack (s : State) : (pulse s).ack = s.ack := rfl
@[simp] theorem pulse_ackOk (s : State) : (pulse s).ackOk = s.ackOk := rfl
@[simp] theorem pulse_fault (s : State) : (pulse s).fault = s.fault := rfl
@[simp] theorem pulse_trace (s : State) : (pulse s).trace = s.trace ++ [.set .clk false] ++ [.delay] ++ [.set .clk true] ++ [.delay] := rfl
@[simp] theorem pulse_session (s : State) : (pulse s).session = s.session := rfl
@[simp] theorem pulse_idcode (s : State) : (pulse s).idcode = s.idcode := rfl
@[simp] theorem pulse_pc (s : State) : (pulse s).pc = s.pc := rfl
@[simp] theorem pulse_program (s : State) : (pulse s).program = s.program := rfl
@[simp] theorem pulse_target (s : State) : (pulse s).target = s.target := rfl
@[simp] theorem pulse_samples (s : State) : (pulse s).samples = s.samples := rfl

/-! ## driveData -/

@[simp] theorem driveData_pinClk (l : Level) (s : State) : (driveData l s).pinClk = s.pinClk := rfl
@[simp] theorem driveData_pinDio (l : Level) (s : State) : (driveData l s).pinDio = s.pinDio := rfl
@[simp] theorem driveData_tHalf (l : Level) (s : State) : (driveData l s).tHalf = s.tHalf := rfl
@[simp] theorem driveData_clkMode (l : Level) (s : State) : (driveData l s).clkMode = s.clkMode := rfl
@[simp] theorem driveData_dioMode (l : Level) (s : State) : (driveData l s).dioMode = s.dioMode := rfl
@[simp] theorem driveData_clkOut (l : Level) (s : State) : (driveData l s).clkOut = s.clkOut := rfl
@[simp] theorem driveData_dioOut (l : Level) (s : State) : (driveData l s).dioOut = some l := rfl
@[simp] theorem driveData_dir (l : Level) (s : State) : (driveData l s).dir = s.dir := rfl
@[simp] theorem driveData_initDone (l : Level) (s : State) : (driveData l s).initDone = s.initDone := rfl
@[simp] theorem driveData_rdata (l : Level) (s : State) : (driveData l s).rdata = s.rdata := rfl
@[simp] theorem driveData_ack (l : Level) (s : State) : (driveData l s).ack = s.ack := rfl
@[simp] theorem driveData_ackOk (l : Level) (s : State) : (driveData l s).ackOk = s.ackOk := rfl
@[simp] theorem driveData_fault (l : Level) (s : State) : (driveData l s).fault = s.fault := rfl
@[simp] theorem driveData_trace (l : Level) (s : State) : (driveData l s).trace = s.trace ++ [.set .dio l] := rfl
@[simp] theorem driveData_session (l : Level) (s : State) : (driveData l s).session = s.session := rfl
@[simp] theorem driveData_idcode (l : Level) (s : State) : (driveData l s).idcode = s.idcode := rfl
@[simp] theorem driveData_pc (l : Level) (s : State) : (driveData l s).pc = s.pc := rfl
@[simp] theorem driveData_program (l : Level) (s : State) : (driveData l s).program = s.program := rfl
@[simp] theorem driveData_target (l : Level) (s : State) : (driveData l s).target = s.target := rfl
@[simp] theorem driveData_samples (l : Level) (s : State) : (driveData l s).samples = s.samples := rfl

/-! ## makeDataOutput -/

@[simp] theorem makeDataOutput_pinClk (s : State) : (makeDataOutput s).pinClk = s.pinClk := rfl
@[simp] theorem makeDataOutput_pinDio (s : State) : (makeDataOutput s).pinDio = s.pinDio := rfl
@[simp] theorem makeDataOutput_tHalf (s : State) : (makeDataOutput s).tHalf = s.tHalf := rfl
@[simp] theorem makeDataOutput_clkMode (s : State) : (makeDataOutput s).clkMode = s.clkMode := rfl
@[simp] theorem makeDataOutput_dioMode (s : State) : (makeDataOutput s).dioMode = .out := rfl
@[simp] theorem makeDataOutput_clkOut (s : State) : (makeDataOutput s).clkOut = s.clkOut := rfl
@[simp] theorem makeDataOutput_dioOut (s : State) : (makeDataOutput s).dioOut = s.dioOut := rfl
@[simp] theorem makeDataOutput_dir (s : State) : (makeDataOutput s).dir = s.dir := rfl
@[simp] theorem makeDataOutput_initDone (s : State) : (makeDataOutput s).initDone = s.initDone := rfl
@[simp] theorem makeDataOutput_rdata (s : State) : (makeDataOutput s).rdata = s.rdata := rfl
@[simp] theorem makeDataOutput_ack (s : State) : (makeDataOutput s).ack = s.ack := rfl
@[simp] theorem makeDataOutput_ackOk (s : State) : (makeDataOutput s).ackOk = s.ackOk := rfl
@[simp] theorem makeDataOutput_fault (s : State) : (makeDataOutput s).fault = s.fault := rfl
@[simp] theorem makeDataOutput_trace (s : State) : (makeDataOutput s).trace = s.trace ++ [.mode .dio .out] := rfl
@[simp] theorem makeDataOutput_session (s : State) : (makeDataOutput s).session = s.session := rfl
@[simp] theorem makeDataOutput_idcode (s : State) : (makeDataOutput s).idcode = s.idcode := rfl
@[simp] theorem makeDataOutput_pc (s : State) : (makeDataOutput s).pc = s.pc := rfl
@[simp] theorem makeDataOutput_program (s : State) : (makeDataOutput s).program = s.program := rfl
@[simp] theorem makeDataOutput_target (s : State) : (makeDataOutput s).target = s.target := rfl
@[simp] theorem makeDataOutput_samples (s : State) : (makeDataOutput s).samples = s.samples := rfl

/-! ## makeDataInput -/

@[simp] theorem makeDataInput_pinClk (s : State) : (makeDataInput s).pinClk = s.pinClk := rfl
@[simp] theorem makeDataInput_pinDio (s : State) : (makeDataInput s).pinDio = s.pinDio := rfl
@[simp] theorem makeDataInput_tHalf (s : State) : (makeDataInput s).tHalf = s.tHalf := rfl
@[simp] theorem makeDataInput_clkMode (s : State) : (makeDataInput s).clkMode = s.clkMode := rfl
@[simp] theorem makeDataInput_dioMode (s : State) : (makeDataInput s).dioMode = .inp := rfl
@[simp] theorem makeDataInput_clkOut (s : State) : (makeDataInput s).clkOut = s.clkOut := rfl
@[simp] theorem makeDataInput_dioOut (s : State) : (makeDataInput s).dioOut = s.dioOut := rfl
@[simp] theorem makeDataInput_dir (s : State) : (makeDataInput s).dir = s.dir := rfl
@[simp] theorem makeDataInput_initDone (s : State) : (makeDataInput s).initDone = s.initDone := rfl
@[simp] theorem makeDataInput_rdata (s : State) : (makeDataInput s).rdata = s.rdata := rfl
@[simp] theorem makeDataInput_ack (s : State) : (makeDataInput s).ack = s.ack := rfl
@[simp] theorem makeDataInput_ackOk (s : State) : (makeDataInput s).ackOk = s.ackOk := rfl
@[simp] theorem makeDataInput_fault (s : State) : (makeDataInput s).fault = s.fault := rfl
@[simp] theorem makeDataInput_trace (s : State) : (makeDataInput s).trace = s.trace ++ [.mode .dio .inp] := rfl
@[simp] theorem makeDataInput_session (s : State) : (makeDataInput s).session = s.session := rfl
@[simp] theorem makeDataInput_idcode (s : State) : (makeDataInput s).idcode = s.idcode := rfl
@[simp] theorem makeDataInput_pc (s : State) : (makeDataInput s).pc = s.pc := rfl
@[simp] theorem makeDataInput_program (s : State) : (makeDataInput s).program = s.program := rfl
@[simp] theorem makeDataInput_target (s : State) : (makeDataInput s).target = s.target := rfl
@[simp] theorem makeDataInput_samples (s : State) : (makeDataInput s).samples = s.samples := rfl

/-! ## makeClockOutput -/

@[simp] theorem makeClockOutput_pinClk (s : State) : (makeClockOutput s).pinClk = s.pinClk := rfl
@[simp] theorem makeClockOutput_pinDio (s : State) : (makeClockOutput s).pinDio = s.pinDio := rfl
@[simp] theorem makeClockOutput_tHalf (s : State) : (makeClockOutput s).tHalf = s.tHalf := rfl
@[simp] theorem makeClockOutput_clkMode (s : State) : (makeClockOutput s).clkMode = .out := rfl
@[simp] theorem makeClockOutput_dioMode (s : State) : (makeClockOutput s).dioMode = s.dioMode := rfl
@[simp] theorem makeClockOutput_clkOut (s : State) : (makeClockOutput s).clkOut = s.clkOut := rfl
@[simp] theorem makeClockOutput_dioOut (s : State) : (makeClockOutput s).dioOut = s.dioOut := rfl
@[simp] theorem makeClockOutput_dir (s : State) : (makeClockOutput s).dir = s.dir := rfl
@[simp] theorem makeClockOutput_initDone (s : State) : (makeClockOutput s).initDone = s.initDone := rfl
@[simp] theorem makeClockOutput_rdata (s : State) : (makeClockOutput s).rdata = s.rdata := rfl
@[simp] theorem makeClockOutput_ack (s : State) : (makeClockOutput s).ack = s.ack := rfl
@[simp] theorem makeClockOutput_ackOk (s : State) : (makeClockOutput s).ackOk = s.ackOk := rfl
@[simp] theorem makeClockOutput_fault (s : State) : (makeClockOutput s).fault = s.fault := rfl
@[simp] theorem makeClockOutput_trace (s : State) : (makeClockOutput s).trace = s.trace ++ [.mode .clk .out] := rfl
@[simp] theorem makeClockOutput_session (s : State) : (makeClockOutput s).session = s.session := rfl
@[simp] theorem makeClockOutput_idcode (s : State) : (makeClockOutput s).idcode = s.idcode := rfl
@[simp] theorem makeClockOutput_pc (s : State) : (makeClockOutput s).pc = s.pc := rfl
@[simp] theorem makeClockOutput_program (s : State) : (makeClockOutput s).program = s.program := rfl
@[simp] theorem makeClockOutput_target (s : State) : (makeClockOutput s).target = s.target := rfl
@[simp] theorem makeClockOutput_samples (s : State) : (makeClockOutput s).samples = s.samples := rfl

/-! ## setDir -/

@[simp] theorem setDir_pinClk (d : Dir) (s : State) : (setDir d s).pinClk = s.pinClk := rfl
@[simp] theorem setDir_pinDio (d : Dir) (s : State) : (setDir d s).pinDio = s.pinDio := rfl
@[simp] theorem setDir_tHalf (d : Dir) (s : State) : (setDir d s).tHalf = s.tHalf := rfl
@[simp] theorem setDir_clkMode (d : Dir) (s : State) : (setDir d s).clkMode = s.clkMode := rfl
@[simp] theorem setDir_dioMode (d : Dir) (s : State) : (setDir d s).dioMode = s.dioMode := rfl
@[simp] theorem setDir_clkOut (d : Dir) (s : State) : (setDir d s).clkOut = s.clkOut := rfl
@[simp] theorem setDir_dioOut (d : Dir) (s : State) : (setDir d s).dioOut = s.dioOut := rfl
@[simp] theorem setDir_dir (d : Dir) (s : State) : (setDir d s).dir = d := rfl
@[simp] theorem setDir_initDone (d : Dir) (s : State) : (setDir d s).initDone = s.initDone := rfl
@[simp] theorem setDir_rdata (d : Dir) (s : State) : (setDir d s).rdata = s.rdata := rfl
@[simp] theorem setDir_ack (d : Dir) (s : State) : (setDir d s).ack = s.ack := rfl
@[simp] theorem setDir_ackOk (d : Dir) (s : State) : (setDir d s).ackOk = s.ackOk := rfl
@[simp] theorem setDir_fault (d : Dir) (s : State) : (setDir d s).fault = s.fault := rfl
@[simp] theorem setDir_trace (d : Dir) (s : State) : (setDir d s).trace = s.trace := rfl
@[simp] theorem setDir_session (d : Dir) (s : State) : (setDir d s).session = s.session := rfl
@[simp] theorem setDir_idcode (d : Dir) (s : State) : (setDir d s).idcode = s.idcode := rfl
@[simp] theorem setDir_pc (d : Dir) (s : State) : (setDir d s).pc = s.pc := rfl
@[simp] theorem setDir_program (d : Dir) (s : State) : (setDir d s).program = s.program := rfl
@[simp] theorem setDir_target (d : Dir) (s : State) : (setDir d s).target = s.target := rfl
@[simp] theorem setDir_samples (d : Dir) (s : State) : (setDir d s).samples = s.samples := rfl

/-! ## raise -/

@[simp] theorem raise_pinClk (c : FaultCode) (w : CmdWord) (s : State) : (raise c w s).pinClk = s.pinClk := rfl
@[simp] theorem raise_pinDio (c : FaultCode) (w : CmdWord) (s : State) : (raise c w s).pinDio = s.pinDio := rfl
@[simp] theorem raise_tHalf (c : FaultCode) (w : CmdWord) (s : State) : (raise c w s).tHalf = s.tHalf := rfl
@[simp] theorem raise_clkMode (c : FaultCode) (w : CmdWord) (s : State) : (raise c w s).clkMode = s.clkMode := rfl
@[simp] theorem raise_dioMode (c : FaultCode) (w : CmdWord) (s : State) : (raise c w s).dioMode = s.dioMode := rfl
@[simp] theorem raise_clkOut (c : FaultCode) (w : CmdWord) (s : State) : (raise c w s).clkOut = s.clkOut := rfl
@[simp] theorem raise_dioOut (c : FaultCode) (w : CmdWord) (s : State) : (raise c w s).dioOut = s.dioOut := rfl
@[simp] theorem raise_dir (c : FaultCode) (w : CmdWord) (s : State) : (raise c w s).dir = s.dir := rfl
@[simp] theorem raise_initDone (c : FaultCode) (w : CmdWord) (s : State) : (raise c w s).initDone = s.initDone := rfl
@[simp] theorem raise_rdata (c : FaultCode) (w : CmdWord) (s : State) : (raise c w s).rdata = s.rdata := rfl
@[simp] theorem raise_ack (c : FaultCode) (w : CmdWord) (s : State) : (raise c w s).ack = s.ack := rfl
@[simp] theorem raise_ackOk (c : FaultCode) (w : CmdWord) (s : State) : (raise c w s).ackOk = s.ackOk := rfl
@[simp] theorem raise_fault (c : FaultCode) (w : CmdWord) (s : State) : (raise c w s).fault = ⟨c, some w⟩ := rfl
@[simp] theorem raise_trace (c : FaultCode) (w : CmdWord) (s : State) : (raise c w s).trace = s.trace := rfl
@[simp] theorem raise_session (c : FaultCode) (w : CmdWord) (s : State) : (raise c w s).session = s.session := rfl
@[simp] theorem raise_idcode (c : FaultCode) (w : CmdWord) (s : State) : (raise c w s).idcode = s.idcode := rfl
@[simp] theorem raise_pc (c : FaultCode) (w : CmdWord) (s : State) : (raise c w s).pc = s.pc := rfl
@[simp] theorem raise_program (c : FaultCode) (w : CmdWord) (s : State) : (raise c w s).program = s.program := rfl
@[simp] theorem raise_target (c : FaultCode) (w : CmdWord) (s : State) : (raise c w s).target = s.target := rfl
@[simp] theorem raise_samples (c : FaultCode) (w : CmdWord) (s : State) : (raise c w s).samples = s.samples := rfl

/-! ## countIssue -/

@[simp] theorem countIssue_pinClk (s : State) : (countIssue s).pinClk = s.pinClk := rfl
@[simp] theorem countIssue_pinDio (s : State) : (countIssue s).pinDio = s.pinDio := rfl
@[simp] theorem countIssue_tHalf (s : State) : (countIssue s).tHalf = s.tHalf := rfl
@[simp] theorem countIssue_clkMode (s : State) : (countIssue s).clkMode = s.clkMode := rfl
@[simp] theorem countIssue_dioMode (s : State) : (countIssue s).dioMode = s.dioMode := rfl
@[simp] theorem countIssue_clkOut (s : State) : (countIssue s).clkOut = s.clkOut := rfl
@[simp] theorem countIssue_dioOut (s : State) : (countIssue s).dioOut = s.dioOut := rfl
@[simp] theorem countIssue_dir (s : State) : (countIssue s).dir = s.dir := rfl
@[simp] theorem countIssue_initDone (s : State) : (countIssue s).initDone = s.initDone := rfl
@[simp] theorem countIssue_rdata (s : State) : (countIssue s).rdata = s.rdata := rfl
@[simp] theorem countIssue_ack (s : State) : (countIssue s).ack = s.ack := rfl
@[simp] theorem countIssue_ackOk (s : State) : (countIssue s).ackOk = s.ackOk := rfl
@[simp] theorem countIssue_fault (s : State) : (countIssue s).fault = s.fault := rfl
@[simp] theorem countIssue_trace (s : State) : (countIssue s).trace = s.trace := rfl
@[simp] theorem countIssue_session (s : State) : (countIssue s).session = s.session := rfl
@[simp] theorem countIssue_idcode (s : State) : (countIssue s).idcode = s.idcode := rfl
@[simp] theorem countIssue_pc (s : State) : (countIssue s).pc = s.pc + 1 := rfl
@[simp] theorem countIssue_program (s : State) : (countIssue s).program = s.program := rfl
@[simp] theorem countIssue_target (s : State) : (countIssue s).target = s.target := rfl
@[simp] theorem countIssue_samples (s : State) : (countIssue s).samples = s.samples := rfl

/-! ## placeIssues -/

@[simp] theorem placeIssues_pinClk (es : List Issue) (s : State) : (placeIssues es s).pinClk = s.pinClk := rfl
@[simp] theorem placeIssues_pinDio (es : List Issue) (s : State) : (placeIssues es s).pinDio = s.pinDio := rfl
@[simp] theorem placeIssues_tHalf (es : List Issue) (s : State) : (placeIssues es s).tHalf = s.tHalf := rfl
@[simp] theorem placeIssues_clkMode (es : List Issue) (s : State) : (placeIssues es s).clkMode = s.clkMode := rfl
@[simp] theorem placeIssues_dioMode (es : List Issue) (s : State) : (placeIssues es s).dioMode = s.dioMode := rfl
@[simp] theorem placeIssues_clkOut (es : List Issue) (s : State) : (placeIssues es s).clkOut = s.clkOut := rfl
@[simp] theorem placeIssues_dioOut (es : List Issue) (s : State) : (placeIssues es s).dioOut = s.dioOut := rfl
@[simp] theorem placeIssues_dir (es : List Issue) (s : State) : (placeIssues es s).dir = s.dir := rfl
@[simp] theorem placeIssues_initDone (es : List Issue) (s : State) : (placeIssues es s).initDone = s.initDone := rfl
@[simp] theorem placeIssues_rdata (es : List Issue) (s : State) : (placeIssues es s).rdata = s.rdata := rfl
@[simp] theorem placeIssues_ack (es : List Issue) (s : State) : (placeIssues es s).ack = s.ack := rfl
@[simp] theorem placeIssues_ackOk (es : List Issue) (s : State) : (placeIssues es s).ackOk = s.ackOk := rfl
@[simp] theorem placeIssues_fault (es : List Issue) (s : State) : (placeIssues es s).fault = s.fault := rfl
@[simp] theorem placeIssues_trace (es : List Issue) (s : State) : (placeIssues es s).trace = s.trace := rfl
@[simp] theorem placeIssues_session (es : List Issue) (s : State) : (placeIssues es s).session = s.session := rfl
@[simp] theorem placeIssues_idcode (es : List Issue) (s : State) : (placeIssues es s).idcode = s.idcode := rfl
@[simp] theorem placeIssues_pc (es : List Issue) (s : State) : (placeIssues es s).pc = s.pc := rfl
@[simp] theorem placeIssues_program (es : List Issue) (s : State) : (placeIssues es s).program = putAt s.pc es s.program := rfl
@[simp] theorem placeIssues_target (es : List Issue) (s : State) : (placeIssues es s).target = s.target := rfl
@[simp] theorem placeIssues_samples (es : List Issue) (s : State) : (placeIssues es s).samples = s.samples := rfl

/-! ## sample: what it leaves (its own writes are `sample_eq` of Laws/Ops.lean) -/

@[simp] theorem sample_pinClk (s : State) : (sample s).2.pinClk = s.pinClk := by
  simp only [sample, drawTarget]; split <;> rfl
@[simp] theorem sample_pinDio (s : State) : (sample s).2.pinDio = s.pinDio := by
  simp only [sample, drawTarget]; split <;> rfl
@[simp] theorem sample_tHalf (s : State) : (sample s).2.tHalf = s.tHalf := by
  simp only [sample, drawTarget]; split <;> rfl
@[simp] theorem sample_clkMode (s : State) : (sample s).2.clkMode = s.clkMode := by
  simp only [sample, drawTarget]; split <;> rfl
@[simp] theorem sample_dioMode (s : State) : (sample s).2.dioMode = s.dioMode := by
  simp only [sample, drawTarget]; split <;> rfl
@[simp] theorem sample_clkOut (s : State) : (sample s).2.clkOut = s.clkOut := by
  simp only [sample, drawTarget]; split <;> rfl
@[simp] theorem sample_dioOut (s : State) : (sample s).2.dioOut = s.dioOut := by
  simp only [sample, drawTarget]; split <;> rfl
@[simp] theorem sample_dir (s : State) : (sample s).2.dir = s.dir := by
  simp only [sample, drawTarget]; split <;> rfl
@[simp] theorem sample_initDone (s : State) : (sample s).2.initDone = s.initDone := by
  simp only [sample, drawTarget]; split <;> rfl
@[simp] theorem sample_rdata (s : State) : (sample s).2.rdata = s.rdata := by
  simp only [sample, drawTarget]; split <;> rfl
@[simp] theorem sample_ack (s : State) : (sample s).2.ack = s.ack := by
  simp only [sample, drawTarget]; split <;> rfl
@[simp] theorem sample_ackOk (s : State) : (sample s).2.ackOk = s.ackOk := by
  simp only [sample, drawTarget]; split <;> rfl
@[simp] theorem sample_fault (s : State) : (sample s).2.fault = s.fault := by
  simp only [sample, drawTarget]; split <;> rfl
@[simp] theorem sample_session (s : State) : (sample s).2.session = s.session := by
  simp only [sample, drawTarget]; split <;> rfl
@[simp] theorem sample_idcode (s : State) : (sample s).2.idcode = s.idcode := by
  simp only [sample, drawTarget]; split <;> rfl
@[simp] theorem sample_pc (s : State) : (sample s).2.pc = s.pc := by
  simp only [sample, drawTarget]; split <;> rfl
@[simp] theorem sample_program (s : State) : (sample s).2.program = s.program := by
  simp only [sample, drawTarget]; split <;> rfl

end Sys2Proof.Machine
end

