-- ==== Sys2Proof/Laws/Ops.lean ====
section
/-! SUPPORT. For each shared operation, once, everything it can do: the provers cite these lemmas and do
not unfold the operations. -/

namespace Sys2Proof.Machine

/-! ## Pulse and samples -/

theorem pulse_eq (s : State) :
    pulse s = { s with clkOut := some true, trace := s.trace ++ pulseEvents } := by
  simp [pulse, emit, follow, pulseEvents, List.append_assoc]

theorem drawTarget_eq (s : State) :
    drawTarget s =
      (targetLevel s 0, { s with target := s.target.drop 1, samples := s.samples + 1 }) := by
  unfold drawTarget targetLevel
  cases h : s.target <;> simp

theorem sample_eq (s : State) :
    sample s = (targetLevel s 0,
      { s with
        target := s.target.drop 1, samples := s.samples + 1,
        trace := s.trace ++ [.sample .dio (targetLevel s 0)] }) := by
  simp [sample, drawTarget_eq, emit, follow]

/-- The draws that come after n samples of a data line are its draws from the n-th on. -/
theorem targetLevel_after_samples (s t : State) (n j : Nat) (hp : t.pinDio = s.pinDio)
    (ht : t.target = s.target.drop n) (hs : t.samples = s.samples + n) :
    targetLevel t j = targetLevel s (n + j) := by
  simp [targetLevel, hp, ht, hs, Nat.add_assoc]

@[simp] theorem comingLevels_length (s : State) (n : Nat) : (comingLevels s n).length = n := by
  simp [comingLevels]

/-! ## The bit loops -/

/-- The events of the bits of v from bit i on, as the loop of WRITE_BITS emits them. -/
theorem sendBits_eq (v : DataWord) (count i : Nat) (s : State) :
    sendBits v i count s =
      { s with
        clkOut := clockAfter count s.clkOut
        dioOut := if count = 0 then s.dioOut else some (v.getLsbD (i + count - 1))
        trace := s.trace ++
          (List.range' i count).flatMap fun k => .set .dio (v.getLsbD k) :: pulseEvents } := by
  induction count generalizing i s with
  | zero => simp [sendBits, clockAfter]
  | succ c ih =>
    rw [sendBits, ih]
    rcases Nat.eq_zero_or_pos c with rfl | hc
    · simp [pulse_eq, driveData, emit, follow, clockAfter, bitOf, List.range'_succ]
    · have h1 : c ≠ 0 := by omega
      have h2 : i + 1 + c - 1 = i + (c + 1) - 1 := by omega
      simp [pulse_eq, driveData, emit, follow, clockAfter, bitOf, List.range'_succ, h1, h2,
        List.append_assoc]

/-- What the loop of READ_BITS and READ_ACK leaves, whatever it assembles. -/
theorem receiveBits_state {w : Nat} (count i : Nat) (r : BitVec w) (s : State) :
    (receiveBits i count r s).2 =
      { s with
        clkOut := clockAfter count s.clkOut
        target := s.target.drop count
        samples := s.samples + count
        trace := s.trace ++ readEvents (comingLevels s count) } := by
  induction count generalizing i r s with
  | zero => simp [receiveBits, clockAfter, readEvents, comingLevels]
  | succ c ih =>
    rw [receiveBits, ih]
    have hl : comingLevels (pulse (sample s).2) c = (List.range c).map fun k => targetLevel s (1 + k) := by
      unfold comingLevels
      refine List.map_congr_left fun k _ => ?_
      exact targetLevel_after_samples s _ 1 k (by simp [sample_eq, pulse_eq]) (by simp [sample_eq, pulse_eq])
        (by simp [sample_eq, pulse_eq])
    have hc : comingLevels s (c + 1) =
        targetLevel s 0 :: (List.range c).map fun k => targetLevel s (1 + k) := by
      simp [comingLevels, List.range_succ_eq_map, Nat.add_comm]
    rw [hl, hc]
    have hk : clockAfter c (some true) = some true := by simp [clockAfter]
    simp [pulse_eq, sample_eq, readEvents, hk, List.append_assoc, Nat.add_comm 1, Nat.add_assoc]
    simp [clockAfter]

theorem placeBit_getLsbD {w : Nat} (r : BitVec w) (i k : Nat) (d : Level) (hk : k < w) :
    (placeBit r i d).getLsbD k = if k = i then d else r.getLsbD k := by
  unfold placeBit
  by_cases h : k = i
  · subst h; cases d <;> simp [hk]
  · cases d <;> simp [h, hk]

/-- Bit k of the assembled value: the draw made for it, or what stood there (R42, R145). -/
theorem receiveBits_getLsbD {w : Nat} (count i : Nat) (r : BitVec w) (s : State) (k : Nat) (hk : k < w) :
    (receiveBits i count r s).1.getLsbD k =
      if i ≤ k ∧ k < i + count then targetLevel s (k - i) else r.getLsbD k := by
  induction count generalizing i r s with
  | zero =>
    have h : ¬ (i ≤ k ∧ k < i + 0) := by omega
    simp only [receiveBits, h, if_false]
  | succ c ih =>
    rw [receiveBits, ih, placeBit_getLsbD _ _ _ _ hk]
    have hd : ∀ j, targetLevel (pulse (sample s).2) j = targetLevel s (1 + j) := fun j =>
      targetLevel_after_samples s _ 1 j (by simp [sample_eq, pulse_eq]) (by simp [sample_eq, pulse_eq])
        (by simp [sample_eq, pulse_eq])
    rw [hd]
    by_cases h1 : i + 1 ≤ k ∧ k < i + 1 + c
    · have h2 : i ≤ k ∧ k < i + (c + 1) := by omega
      have h3 : 1 + (k - (i + 1)) = k - i := by omega
      simp only [h1, h2, h3, and_self, if_true]
    · by_cases h4 : k = i
      · subst h4
        simp [sample_eq]
      · have h2 : ¬ (i ≤ k ∧ k < i + (c + 1)) := by omega
        simp only [h1, h2, h4, if_false]

/-! ## Performing a command -/

/-- A decoded command, once: stuck, a raised fault, or its pseudocode (R204). -/
theorem perform_cases (i : Instr) (check : Option FaultCode) (body : State → State) (s : State) :
    (s.fault.code ≠ .none ∧ perform i check body s = stuck s) ∨
    (s.fault.code = .none ∧ ∃ code, check = some code ∧
      perform i check body s = .next (raise code (encodeCmd i) s)) ∨
    (s.fault.code = .none ∧ check = none ∧ perform i check body s = .next (body s)) := by
  by_cases h : s.fault.code = .none
  · right
    cases check with
    | some code => exact .inl ⟨h, code, rfl, by simp [perform, faultPending, h]⟩
    | none => exact .inr ⟨h, rfl, by simp [perform, faultPending, h]⟩
  · exact .inl ⟨h, by simp [perform, faultPending, h]⟩

theorem perform_next {i : Instr} {check : Option FaultCode} {body : State → State} {s t : State}
    (h : perform i check body s = .next t) :
    s.fault.code = .none ∧
      ((∃ code, check = some code ∧ t = raise code (encodeCmd i) s) ∨ (check = none ∧ t = body s)) := by
  rcases perform_cases i check body s with ⟨_, e⟩ | ⟨h0, code, hc, e⟩ | ⟨h0, hc, e⟩
  · rw [e] at h; simp [stuck] at h
  · rw [e] at h; cases h; exact ⟨h0, .inl ⟨code, hc, rfl⟩⟩
  · rw [e] at h; cases h; exact ⟨h0, .inr ⟨hc, rfl⟩⟩

/-- The pseudocode of each command after its checks (R100 to R160). -/
def bodyOf : Instr → State → State
  | .init, s => initBody s
  | .clockPulse, s => pulse s
  | .setReadMode, s => setDir .read (makeDataInput s)
  | .setWriteMode, s => pulse (setDir .write (makeDataOutput s))
  | .turnAround, s => pulse (setDir .read (makeDataInput s))
  | .writeBits v n, s => sendBits v 0 n s
  | .readBits n, s => readBitsBody n s
  | .readAck, s => readAckBody s
  | .setData l, s => driveData l s

theorem checkInit_eq (s : State) :
    checkInit s = if s.initDone = false then some .notInitialized else none := by
  cases h : s.initDone <;> simp [checkInit, h]

theorem checkInit_or (s : State) (c : Option FaultCode) :
    (checkInit s).or c = if s.initDone = false then some .notInitialized else c := by
  cases h : s.initDone <;> simp [checkInit, h]

theorem checkLength_or (n : Nat) (c : Option FaultCode) :
    (checkLength n).or c = if n > 32 then some .lengthOutOfRange else c := by
  by_cases h : n ≤ 32
  · have h' : ¬ n > 32 := by omega
    simp [checkLength, lenInRange, maxLen, h]
  · have h' : n > 32 := by omega
    simp [checkLength, lenInRange, maxLen, h]

theorem checkWrite_eq (s : State) :
    checkWrite s = if s.dir ≠ .write then some .dirNotWrite else none := by
  by_cases h : s.dir = .write <;> simp [checkWrite, h]

theorem checkRead_eq (s : State) :
    checkRead s = if s.dir ≠ .read then some .dirNotRead else none := by
  by_cases h : s.dir = .read <;> simp [checkRead, h]

/-- Every meaning is the same shared operation over its own checks and its own pseudocode. -/
theorem exec_eq_perform (i : Instr) (s : State) : exec i s = perform i (faultOf i s) (bodyOf i) s := by
  cases i <;>
    simp only [exec, execInit, execClockPulse, execSetReadMode, execSetWriteMode, execTurnAround,
      execWriteBits, execReadBits, execReadAck, execSetData, faultOf, checkInit_or, checkLength_or,
      checkWrite_eq, checkRead_eq] <;>
    (try simp only [checkInit_eq]) <;> rfl

/-- What a command can do, once: it raises the first fault that applies, or runs its pseudocode. -/
theorem exec_next {i : Instr} {s t : State} (h : exec i s = .next t) :
    s.fault.code = .none ∧
      ((∃ code, faultOf i s = some code ∧ t = raise code (encodeCmd i) s) ∨
        (faultOf i s = none ∧ t = bodyOf i s)) :=
  perform_next (exec_eq_perform i s ▸ h)

end Sys2Proof.Machine
end

