-- ==== Sys2Proof/Laws/Observe.lean ====
section
/-! SUPPORT. The observations of a trace over an appended span: edge view, counts, discipline, replay. -/

namespace Sys2Proof.Machine

/-- The lines a span leaves, from given lines on. -/
def Lines.afterAll (l : Lines) (es : List Event) : Lines := es.foldl Lines.after l

@[simp] theorem Lines.afterAll_nil (l : Lines) : l.afterAll [] = l := rfl

@[simp] theorem Lines.afterAll_cons (l : Lines) (e : Event) (es : List Event) :
    l.afterAll (e :: es) = (l.after e).afterAll es := rfl

theorem Lines.afterAll_append (l : Lines) (es fs : List Event) :
    l.afterAll (es ++ fs) = (l.afterAll es).afterAll fs := by
  simp [Lines.afterAll, List.foldl_append]

theorem replay_append (es fs : List Event) : replay (es ++ fs) = (replay es).afterAll fs := by
  simp [replay, Lines.afterAll, List.foldl_append]

theorem disciplinedFrom_append (l : Lines) (es fs : List Event) :
    disciplinedFrom l (es ++ fs) = (disciplinedFrom l es && disciplinedFrom (l.afterAll es) fs) := by
  induction es generalizing l with
  | nil => simp [disciplinedFrom]
  | cons e es ih => simp [disciplinedFrom, ih, Bool.and_assoc]

/-- The edge view of a longer span goes on from the lines the shorter one left. -/
theorem edgesFrom_append (l : Lines) (es fs : List Event) :
    edgesFrom l.dioMode l.dioOut (es ++ fs) =
      edgesFrom l.dioMode l.dioOut es ++
        edgesFrom (l.afterAll es).dioMode (l.afterAll es).dioOut fs := by
  induction es generalizing l with
  | nil => simp [edgesFrom]
  | cons e es ih =>
    have h := ih (l.after e)
    rcases e with ⟨_ | _, _ | _⟩ | ⟨_ | _, _ | _⟩ | _ | ⟨p, d⟩ <;>
      simp_all [edgesFrom, Lines.after]

theorem edgeView_append (es fs : List Event) :
    edgeView (es ++ fs) = edgeView es ++ edgesFrom (replay es).dioMode (replay es).dioOut fs :=
  edgesFrom_append Lines.reset es fs

end Sys2Proof.Machine
end

