-- ==== Sys2Proof/Laws/PerInstr.lean ====
section
/-! SUPPORT. Per command: its encoded word matches the row of R63 that bears its mnemonic, whatever its
operands. One lemma per constructor of Instr. -/

namespace Sys2Proof.Laws.MatchesItsRow

/-- The command's word matches the row of its mnemonic (R63, R64). -/
def Statement (i : Instr) : Prop :=
  ∃ row ∈ opcodeMap, row.mnemonic = mnemonicOf i ∧ row.matchesWord (encodeCmd i) = true

/-- A word with a count in LEN's place keeps every bit the mask of WRITE_BITS and READ_BITS looks at. -/
theorem lenBits_masked (w : CmdWord) (n : Nat) : (w ||| lenBits n) &&& 0xFC0F = w &&& 0xFC0F := by
  have h : ∀ f : BitVec 6, f.zeroExtend 16 <<< 4 &&& (0xFC0F : CmdWord) = 0 := by decide
  have hd : ∀ a b m : CmdWord, (a ||| b) &&& m = a &&& m ||| b &&& m := fun a b m => by
    apply BitVec.eq_of_getLsbD_eq
    intro i _
    simp only [BitVec.getLsbD_and, BitVec.getLsbD_or, Bool.and_or_distrib_right]
  rw [hd, lenBits, h]; exact BitVec.or_zero

theorem init : Statement .init := ⟨⟨.INIT, 0xFFFF, 0x0000⟩, by decide, rfl, by decide⟩
theorem clockPulse : Statement .clockPulse := ⟨⟨.CLOCK_PULSE, 0xFFFF, 0x0001⟩, by decide, rfl, by decide⟩
theorem setReadMode : Statement .setReadMode :=
  ⟨⟨.SET_READ_MODE, 0xFFFF, 0x0002⟩, by decide, rfl, by decide⟩
theorem setWriteMode : Statement .setWriteMode :=
  ⟨⟨.SET_WRITE_MODE, 0xFFFF, 0x0003⟩, by decide, rfl, by decide⟩
theorem turnAround : Statement .turnAround := ⟨⟨.TURN_AROUND, 0xFFFF, 0x0004⟩, by decide, rfl, by decide⟩
theorem writeBits (value : DataWord) (len : Nat) : Statement (.writeBits value len) :=
  ⟨⟨.WRITE_BITS, 0xFC0F, 0x0005⟩, by decide, rfl,
    by simp only [OpcodeRow.matchesWord, encodeCmd, lenBits_masked]; decide⟩
theorem readBits (len : Nat) : Statement (.readBits len) :=
  ⟨⟨.READ_BITS, 0xFC0F, 0x0006⟩, by decide, rfl,
    by simp only [OpcodeRow.matchesWord, encodeCmd, lenBits_masked]; decide⟩
theorem readAck : Statement .readAck := ⟨⟨.READ_ACK, 0xFFFF, 0x0007⟩, by decide, rfl, by decide⟩
theorem setData (level : Level) : Statement (.setData level) :=
  ⟨⟨.SET_DATA, 0xFBFF, 0x0008⟩, by decide, rfl, by cases level <;> decide⟩

end Sys2Proof.Laws.MatchesItsRow
end

