-- ==== Sys2Proof/Laws/Step.lean ====
section
/-! SUPPORT. What a step can do, once: the inversion lemmas of the LINK's step, of what the CALLER does
after a command, and of the step; and the induction over a run. -/

namespace Sys2Proof.Machine

/-- The LINK's step on a word: stuck, a command, or an illegal word (R204). -/
theorem linkStep_cases (cmd : CmdWord) (wdata : DataWord) (s : State) :
    (s.fault.code ≠ .none ∧ linkStep cmd wdata s = stuck s) ∨
    (s.fault.code = .none ∧ ∃ i, decode cmd wdata = .command i ∧ linkStep cmd wdata s = exec i s) ∨
    (s.fault.code = .none ∧ ∃ why, decode cmd wdata = .illegal why ∧
      linkStep cmd wdata s = .next (raise .illegalCommand cmd s)) := by
  by_cases h : s.fault.code = .none
  · right
    cases hd : decode cmd wdata with
    | command i => exact .inl ⟨h, i, rfl, by simp [linkStep, faultPending, h, hd]⟩
    | illegal why => exact .inr ⟨h, why, rfl, by simp [linkStep, faultPending, h, hd]⟩
  · exact .inl ⟨h, by simp [linkStep, faultPending, h]⟩

/-- A next state of the LINK: a command's, or the raised ILLEGAL_COMMAND. -/
theorem linkStep_next {cmd : CmdWord} {wdata : DataWord} {s t : State}
    (h : linkStep cmd wdata s = .next t) :
    s.fault.code = .none ∧
      ((∃ i, decode cmd wdata = .command i ∧ exec i s = .next t) ∨
        ((∃ why, decode cmd wdata = .illegal why) ∧ t = raise .illegalCommand cmd s)) := by
  rcases linkStep_cases cmd wdata s with ⟨_, e⟩ | ⟨h0, i, hd, e⟩ | ⟨h0, why, hd, e⟩
  · rw [e] at h; simp [stuck] at h
  · exact ⟨h0, .inl ⟨i, hd, e ▸ h⟩⟩
  · rw [e] at h; cases h; exact ⟨h0, .inr ⟨⟨why, hd⟩, rfl⟩⟩

/-- What the CALLER leaves after a command (R179 to R181). -/
theorem afterCommand_next {a : After} {s t : State} (h : afterCommand a s = .next t) :
    t = s ∨ t = { s with session := .noDevice } ∨ t = placeIssues [readIdcodeIssue] s ∨
      ∃ v, s.rdata = some v ∧ t = { s with idcode := some v, session := .deviceFound } := by
  unfold afterCommand at h
  split at h
  · cases h; exact .inl rfl
  · cases a with
    | nothing => cases h; exact .inl rfl
    | branchOnAck =>
      simp only [branchOnAck] at h
      split at h
      · cases h
      · cases h; exact .inr (.inl rfl)
      · cases h; exact .inr (.inr (.inl rfl))
    | storeIdcode =>
      simp only [storeIdcode] at h
      cases hr : s.rdata with
      | none => simp [readRdata, readElement, hr] at h
      | some v =>
        simp [readRdata, readElement, hr] at h
        exact .inr (.inr (.inr ⟨v, rfl, h.symm⟩))

/-- A step with an issue: the LINK's step, the count of the issue, and what the CALLER does after it. -/
theorem step_issue {s : State} {e : Issue} (h0 : s.fault.code = .none) (he : s.program[s.pc]? = some e) :
    step s = issueCommand e s := by
  simp [step, advance, faultPending, h0, nextIssue, he]

/-- A step's next state: idle, or one issue. -/
theorem step_next {s t : State} (h : step s = .next t) :
    s.fault.code = .none ∧
      ((s.program[s.pc]? = none ∧ t = s) ∨
        ∃ e u, s.program[s.pc]? = some e ∧ linkStep e.cmd e.wdata s = .next u ∧
          afterCommand e.after (countIssue u) = .next t) := by
  unfold step advance at h
  split at h
  · simp [stuck] at h
  · rename_i hf
    refine ⟨by simpa [faultPending] using hf, ?_⟩
    cases hp : nextIssue s with
    | none => rw [hp] at h; cases h; exact .inl ⟨hp, rfl⟩
    | some e =>
      rw [hp] at h
      simp only [issueCommand] at h
      cases hl : linkStep e.cmd e.wdata s with
      | next u => rw [hl] at h; exact .inr ⟨e, u, hp, hl, h⟩
      | fault f => rw [hl] at h; cases h
      | refused r => rw [hl] at h; cases h

/-- What every command, a raised fault, the count of an issue and the CALLER's work after it keep, every
step keeps. -/
theorem step_keeps {P : State → Prop}
    (hexec : ∀ i s t, P s → exec i s = .next t → P t)
    (hraise : ∀ cmd s, s.fault.code = .none → P s → P (raise .illegalCommand cmd s))
    (hcount : ∀ s, P s → P (countIssue s))
    (hafter : ∀ a s t, P s → afterCommand a s = .next t → P t)
    {s t : State} (hs : P s) (h : step s = .next t) : P t := by
  obtain ⟨h0, ⟨_, rfl⟩ | ⟨e, u, _, hl, ha⟩⟩ := step_next h
  · exact hs
  · obtain ⟨_, ⟨i, _, hx⟩ | ⟨_, rfl⟩⟩ := linkStep_next hl
    · exact hafter _ _ _ (hcount _ (hexec _ _ _ hs hx)) ha
    · exact hafter _ _ _ (hcount _ (hraise _ _ h0 hs)) ha

/-- What every step keeps holds after any number of steps. -/
theorem steps_keep {P : State → Prop} (hstep : ∀ s t, P s → step s = .next t → P t) :
    ∀ (k : Nat) {s t : State}, P s → steps k s = .next t → P t
  | 0, _, _, hs, h => by cases h; exact hs
  | k + 1, s, t, hs, h => by
    unfold steps at h
    cases hx : step s with
    | next u => rw [hx] at h; exact steps_keep hstep k (hstep _ _ hs hx) h
    | fault f => rw [hx] at h; cases h
    | refused r => rw [hx] at h; cases h

/-! ## The list of issues -/

/-- Issues put in at an index are found from there on. -/
theorem putAt_getElem? (k : Nat) (es program : List Issue) (j : Nat) (hj : j < es.length) :
    (putAt k es program)[k + j]? = es[j]? := by
  unfold putAt
  have hl : (program.take k ++ List.replicate (k - program.length) (⟨0, 0, .nothing⟩ : Issue)).length = k := by
    simp; omega
  rw [List.append_assoc, List.append_assoc, ← List.append_assoc,
    List.getElem?_append_right (by omega)]
  rw [hl, Nat.add_sub_cancel_left, List.getElem?_append_left hj]

/-- What is placed is what is issued next. -/
theorem placeIssues_next (e : Issue) (es : List Issue) (s : State) :
    nextIssue (placeIssues (e :: es) s) = some e := by
  simpa [nextIssue] using putAt_getElem? s.pc (e :: es) s.program 0 (by simp)

/-- The word put in is issued by the very next step. -/
theorem withFetchWord_next (s : State) (nbits w : Nat) :
    nextIssue (s.withFetchWord nbits w) = some (tableIssue nbits w) :=
  placeIssues_next _ _ _

end Sys2Proof.Machine
end

