-- ==== Sys2Proof/Tests/Slice0.lean ====
section
/-! SUPPORT. Tests: words written out from the encoding of spec/30_encoding.md, single steps against the
vectors of spec/95_test_vectors.md, and for each statement with hypotheses a witness that meets them. -/

namespace Sys2Proof.Tests

open Sys2Proof Sys2Proof.Machine

/-! ## Small states (the start states of 95_test_vectors.md) -/

/-- R, just after reset, with pins 2 and 3. -/
def stateR : State := State.created 2 3 1

/-- I, after INIT. -/
def stateI : State :=
  { stateR with
    clkMode := .out, dioMode := .out, initDone := true
    trace := [.mode .clk .out, .mode .dio .out] }

/-- W, after INIT and SET_WRITE_MODE. -/
def stateW : State :=
  { stateI with
    dir := .write, clkOut := some true
    trace := [.mode .clk .out, .mode .dio .out, .mode .dio .out] ++ pulseEvents }

/-- Rd, after INIT and TURN_AROUND, with the TARGET's coming answers. -/
def stateRd (answers : List Level) : State :=
  { stateI with
    dioMode := .inp, dir := .read, clkOut := some true, target := answers
    trace := [.mode .clk .out, .mode .dio .out, .mode .dio .inp] ++ pulseEvents }

/-- A state with a pending fault. -/
def stateStuck : State := { stateR with fault := ⟨.illegalCommand, some 0x0009⟩ }

/-- The next state, where there is one. -/
def after : Result → Option State
  | .next t => some t
  | .fault _ => none
  | .refused _ => none

/-- The events a command adds to a state's trace. -/
def added (i : Instr) (s : State) : Option (List Event) :=
  (after (exec i s)).map fun t => t.trace.drop s.trace.length

/-- A list of levels from 0 and 1. -/
def bits (l : List Nat) : List Level := l.map (· == 1)

/-- The fault a command leaves. -/
def faultAfter (i : Instr) (s : State) : Option FaultReg := (after (exec i s)).map (·.fault)

/-! ## WellFormed: an ill-formed term for each check (R60) -/

theorem test_wellFormed_refuses_len_64_write : (Instr.writeBits 0 64).wellFormed = false := by decide
theorem test_wellFormed_refuses_len_64_read : (Instr.readBits 64).wellFormed = false := by decide
theorem test_wellFormed_takes_len_63 : (Instr.readBits 63).wellFormed = true := by decide

/-! ## Decode: words written out bit by bit from R60 and R63, and the vectors V-D -/

theorem test_decode_init : decode 0b0000000000000000 0 = .command .init := by decide
theorem test_decode_clockPulse : decode 0b0000000000000001 0 = .command .clockPulse := by decide
theorem test_decode_setReadMode : decode 0b0000000000000010 0 = .command .setReadMode := by decide
theorem test_decode_setWriteMode : decode 0b0000000000000011 0 = .command .setWriteMode := by decide
theorem test_decode_turnAround : decode 0b0000000000000100 0 = .command .turnAround := by decide
/-- LEN = 010000 (16), OP = 0101 (V-B3). -/
theorem test_decode_writeBits :
    decode 0b0000000100000101 0xFFFFE79E = .command (.writeBits 0xFFFFE79E 16) := by decide
/-- LEN = 100000 (32), OP = 0110 (V-B10). -/
theorem test_decode_readBits : decode 0b0000001000000110 0 = .command (.readBits 32) := by decide
theorem test_decode_readAck : decode 0b0000000000000111 0 = .command .readAck := by decide
/-- LVL = 1, OP = 1000 (V-B1). -/
theorem test_decode_setData : decode 0b0000010000001000 0 = .command (.setData true) := by decide
/-- V-D10: LEN = 63 decodes. -/
theorem test_decode_len_63 : decode 0x03F5 0 = .command (.writeBits 0 63) := by decide
/-- V-D2, V-D11, V-D19: a field not used is not 0. -/
theorem test_decode_unused : decode 0x0010 0 = .illegal .unusedField ∧
    decode 0x0405 0 = .illegal .unusedField ∧ decode 0x0418 0 = .illegal .unusedField := by decide
/-- V-D12, V-D23: RES is not 0; V-D20, V-D21: reserved OP; V-D22: both. -/
theorem test_decode_reserved : decode 0x0805 0 = .illegal .reservedBits ∧
    decode 0x8000 0 = .illegal .reservedBits ∧ decode 0x0009 0 = .illegal .reservedOp ∧
    decode 0x000F 0 = .illegal .reservedOp ∧ decode 0xFFFF 0 = .illegal .reservedBits := by decide
/-- The encoding lines of R140 and R142. -/
theorem test_encode_operands : encodeCmd (.setData true) = 0x0408 ∧
    encode (.writeBits 0xE79E 16) = (0x0105, 0xE79E) := by decide
/-- WDATA is the second word: bits 47..16. -/
theorem test_decodeTableWord_wdata :
    decodeTableWord 48 0x0000E79E0105 = some (.writeBits 0xE79E 16) ∧
    decodeTableWord 16 0x0105 = some (.writeBits 0 16) ∧ decodeTableWord 16 0x0009 = none := by decide

/-! ## One step of each command -/

/-- V-I1. -/
theorem test_init_from_reset : added .init stateR = some [.mode .clk .out, .mode .dio .out] := by decide
/-- V-I2, V-I3: DIR becomes UNKNOWN, CLK_OUT is kept, the data pin is an output again. -/
theorem test_init_again : (after (exec .init (stateRd []))).map
    (fun t => (t.dir, t.dioMode, t.clkOut)) = some (.unknown, .out, some true) := by decide
/-- V-C2. -/
theorem test_clockPulse_events :
    added .clockPulse stateI = some [.set .clk false, .delay, .set .clk true, .delay] := by decide
/-- V-C1. -/
theorem test_clockPulse_before_init : faultAfter .clockPulse stateR = some ⟨.notInitialized, some 0x0001⟩ := by
  decide
/-- V-R1: the latch is kept. -/
theorem test_setReadMode_keeps_latch : (after (exec .setReadMode { stateW with dioOut := some true })).map
    (fun t => (t.dir, t.dioMode, t.dioOut)) = some (.read, .inp, some true) := by decide
/-- V-R3. -/
theorem test_setWriteMode_events : added .setWriteMode stateI =
    some [.mode .dio .out, .set .clk false, .delay, .set .clk true, .delay] := by decide
/-- V-R4: the pulse carries the kept latch. -/
theorem test_setWriteMode_edge : (after (exec .setWriteMode { stateRd [] with
      dioOut := some false, trace := [.set .dio false, .mode .dio .inp] })).map
    (fun t => edgeView t.trace) = some [.host (some false)] := by decide
/-- V-R5. -/
theorem test_turnAround_events : added .turnAround stateW =
    some [.mode .dio .inp, .set .clk false, .delay, .set .clk true, .delay] := by decide
/-- V-B1. -/
theorem test_setData_events : added (.setData true) stateW = some [.set .dio true] := by decide
/-- V-B2. -/
theorem test_setData_in_read : faultAfter (.setData true) (stateRd []) = some ⟨.dirNotWrite, some 0x0408⟩ := by
  decide
/-- V-B6: the captured bits of 0xA5 in wire order, and the level left. -/
theorem test_writeBits_captured : (after (exec (.writeBits 0xA5 8) { stateW with trace := [.mode .dio .out] })).map
    (fun t => (capturedBits (edgeView t.trace), t.dioOut)) =
    some ((bits [1, 0, 1, 0, 0, 1, 0, 1]).map some, some true) := by decide
/-- V-D7, V-D9: the direction is checked for n = 0 too, the length before the direction. -/
theorem test_writeBits_faults : faultAfter (.writeBits 0 0) stateI = some ⟨.dirNotWrite, some 0x0005⟩ ∧
    faultAfter (.writeBits 0 33) stateI = some ⟨.lengthOutOfRange, some 0x0215⟩ := by decide
/-- V-B11: the draws of R145 give 0xBA01477F. -/
theorem test_readBits_idcode : (after (exec (.readBits 32) (stateRd (bits
      [1,1,1,1,1,1,1,0, 1,1,1,0,0,0,1,0, 1,0,0,0,0,0,0,0, 0,1,0,1,1,1,0,1])))).map (·.rdata) =
    some (some 0xBA01477F) := by decide
/-- V-B9. -/
theorem test_readBits_events : added (.readBits 3) (stateRd (bits [1, 0, 1])) =
    some ([.sample .dio true] ++ pulseEvents ++ [.sample .dio false] ++ pulseEvents ++
      [.sample .dio true] ++ pulseEvents) := by decide
/-- V-A2: OK; RDATA stays `?`. -/
theorem test_readAck_ok : (after (exec .readAck (stateRd (bits [1, 0, 0])))).map
    (fun t => (t.ack, t.ackOk, t.rdata)) = some (some 0b001, some true, none) := by decide
/-- V-A3, WAIT: the first sample is bit 0. -/
theorem test_readAck_wait : (after (exec .readAck (stateRd (bits [0, 1, 0])))).map
    (fun t => (t.ack, t.ackOk)) = some (some 0b010, some false) := by decide

/-! ## The step -/

/-- The word put in runs as the first instruction after reset. -/
theorem test_step_runs_init :
    (after (step (State.reset.withFetchWord 16 0x0000))).map (·.initDone) = some true := by decide
/-- From R, 0x0009 gives code 1: illegal comes before NOT_INITIALIZED (P6). -/
theorem test_step_illegal : (after (step (stateR.withFetchWord 16 0x0009))).map (·.fault) =
    some ⟨.illegalCommand, some 0x0009⟩ := by decide
/-- P6, V-F2: the second command is not performed. -/
theorem test_step_stuck : step (stateStuck.withFetchWord 16 0x0000) =
    .fault (.stuck .illegalCommand (some 0x0009)) := rfl

/-! ## The reference program (R185) and the assembler form (R68) -/

/-- The words of rows 1 to 170. -/
theorem test_handshake_words : handshakeIssues.map (·.cmd) =
    [0x0003] ++ List.replicate 8 0x0001 ++ List.replicate 16 0x0085 ++ [0x0045, 0x0085] ++
    ([0x0408] ++ List.replicate 62 0x0001 ++ [0x0008] ++ List.replicate 4 0x0001 ++ [0x0408]) ++ [0x0105] ++
    ([0x0408] ++ List.replicate 62 0x0001 ++ [0x0008] ++ List.replicate 4 0x0001 ++ [0x0408]) ++
    [0x0045, 0x0085, 0x0004, 0x0007] := by rfl
/-- 148, 66, 16 and 8 pulses (R173 to R178). -/
theorem test_handshake_pulses : (wake.map pulsesOf).sum = 148 ∧ (lineReset.map pulsesOf).sum = 66 ∧
    (jtagToSwd.map pulsesOf).sum = 16 ∧ (reqIdcode.map pulsesOf).sum = 8 := by decide
/-- S2: the 128 alert bits read as one number, the first bit as bit 0. -/
theorem test_alert_bits : (writeBytes alertBytes).flatMap (edgesOf · stateW) = (List.range 128).map
    (fun i => .host (some ((0x19BC0EA2E3DDAFE986852D956209F392 : BitVec 128).getLsbD i))) := by rfl
/-- A line of P1, with a comment. -/
theorem test_assemble_line :
    assembleLine ['I','D','L','E',' ','4',' ',' ',';',' ','0','x','0','0'] = some [.idle 4] := by decide
/-- A hex value and a decimal count (P3). -/
theorem test_assemble_write :
    assembleLine ['W','R','I','T','E','_','B','I','T','S',' ','0','x','2','D',',',' ','6'] =
      some [.command (.writeBits 0x2D 6)] := by decide
/-- V-B14: `READ_BITS 40` is a line of the assembler form, and the word 0x0286. -/
theorem test_assemble_long_read :
    assembleLine ['R','E','A','D','_','B','I','T','S',' ','4','0'] = some [.command (.readBits 40)] ∧
      encodeCmd (.readBits 40) = 0x0286 := by decide

/-! ## Witnesses: for each statement with hypotheses, states and operands that meet them -/

theorem witness_DecodeOfEncodeIsTheCommand : (Instr.writeBits 0xFFFFFFFF 63).wellFormed = true := by decide
theorem witness_EncodeOfDecodeIsTheWord : decode 0x03F6 0 = .command (.readBits 63) := by decide
theorem witness_WordsAreOneRowOrIllegal :
    (∀ row ∈ opcodeMap, row.matchesWord 0xFFFF = false) ∧ stateR.fault.code = .none ∧
    9 ≤ (opField 0xFFFF).toNat ∧ (⟨.SET_DATA, 0xFBFF, 0x0008⟩ : OpcodeRow).matchesWord 0x0408 = true := by decide
theorem witness_NoWordMatchesTwoRows : (⟨.WRITE_BITS, 0xFC0F, 0x0005⟩ : OpcodeRow) ∈ opcodeMap ∧
    (⟨.WRITE_BITS, 0xFC0F, 0x0005⟩ : OpcodeRow).matchesWord 0x03F5 = true := by decide
theorem witness_LongCountsDecodeAndFault : 33 ≤ 33 ∧ 63 ≤ 63 ∧ Ready stateI ∧ ReadyToWrite stateW ∧
    ReadyToRead (stateRd []) := by decide
theorem witness_AssemblerFormReadsBack :
    writable (.writeBits 0xFFFFFFFF 32) = true ∧ writable (.readBits 63) = true := by decide
theorem witness_StepRunsTheDecodedCommand :
    let s := stateI.withFetchWord 16 0x0001
    s.fault.code = .none ∧ s.program[s.pc]? = some ⟨0x0001, 0, .nothing⟩ ∧
    decode 0x0001 0 = .command .clockPulse := by decide
theorem witness_StepRaisesIllegalCommand :
    let s := stateR.withFetchWord 16 0x0009
    s.fault.code = .none ∧ s.program[s.pc]? = some ⟨0x0009, 0, .nothing⟩ ∧
    decode 0x0009 0 = .illegal .reservedOp := by decide
theorem witness_StepIdlesWithoutAnIssue : stateI.fault.code = .none ∧ stateI.program[stateI.pc]? = none := by
  decide
theorem witness_PcCountsIssuedCommands :
    (stateI.withFetchWord 16 1).program[(stateI.withFetchWord 16 1).pc]? = some ⟨1, 0, .nothing⟩ ∧
    (∃ t, step (stateI.withFetchWord 16 1) = .next t) ∧ ∃ t, exec .clockPulse stateI = .next t :=
  ⟨by decide, ⟨_, rfl⟩, _, rfl⟩
theorem witness_PendingFaultSticksUntilReset : stateStuck.fault.code ≠ .none ∧
    stateStuck.fault.cmd = some 0x0009 ∧ (2 : Nat) ≠ 3 ∧ 0 < 1 := by decide
theorem witness_InitConfiguresBothPins : stateR.fault.code = .none ∧ stateStuck.fault.code ≠ .none := by
  decide
theorem witness_ClockPulseIsOneCycle : Ready stateI ∧ stateR.fault.code = .none ∧ stateR.initDone = false := by
  decide
theorem witness_SetReadModeReleasesTheLine :
    Ready stateW ∧ stateR.fault.code = .none ∧ stateR.initDone = false := by decide
theorem witness_SetWriteModeDrivesThenPulses :
    Ready (stateRd []) ∧ stateR.fault.code = .none ∧ stateR.initDone = false := by decide
theorem witness_TurnAroundReleasesThenPulses :
    Ready stateW ∧ stateR.fault.code = .none ∧ stateR.initDone = false := by decide
theorem witness_TurnAroundIsReadModeThenPulse : Ready stateW := by decide
theorem witness_SetDataDrivesTheLevel : ReadyToWrite stateW ∧ stateR.fault.code = .none ∧
    stateR.initDone = false ∧ Ready stateI ∧ stateI.dir ≠ .write := by decide
theorem witness_WriteBitsSendsLowBitsInOrder : ReadyToWrite stateW ∧ 32 ≤ 32 ∧
    stateR.fault.code = .none ∧ stateR.initDone = false ∧ Ready stateI ∧ 33 > 32 ∧ stateI.dir ≠ .write := by decide
theorem witness_ReadBitsAssemblesSamplesInOrder : ReadyToRead (stateRd []) ∧ 32 ≤ 32 ∧
    stateR.fault.code = .none ∧ stateR.initDone = false ∧ Ready stateW ∧ 33 > 32 ∧ stateW.dir ≠ .read := by decide
theorem witness_ReadValueIsTheSumOfDraws : ReadyToRead (stateRd [true, false]) ∧ 2 ≤ 32 := by decide
theorem witness_ReadAckDecodesThreeSamples : ReadyToRead (stateRd []) ∧ stateR.fault.code = .none ∧
    stateR.initDone = false ∧ Ready stateI ∧ stateI.dir ≠ .read := by decide
theorem witness_AckPatternsAreNamedAsListed :
    ReadyToRead (stateRd (bits [1, 0, 0])) ∧ (∃ t, exec .readAck (stateRd (bits [1, 0, 0])) = .next t) ∧
    comingLevels (stateRd (bits [1, 0, 0])) 3 = [true, false, false] ∧
    comingLevels (stateRd (bits [0, 1, 0])) 3 = [false, true, false] ∧
    comingLevels (stateRd (bits [0, 0, 1])) 3 = [false, false, true] ∧
    comingLevels (stateRd (bits [1, 1, 1])) 3 ∉
      [[true, false, false], [false, true, false], [false, false, true]] :=
  ⟨by decide, ⟨_, rfl⟩, by decide, by decide, by decide, by decide⟩
theorem witness_ReadAckIsReadBitsThree : ReadyToRead (stateRd (bits [0, 1, 0])) := by decide
theorem witness_LoopbackReadsWhatWasWritten :
    let s := { stateW with target := bits [1, 0] }
    ReadyToWrite s ∧ 2 ≤ 32 ∧ ∃ t u, exec (.writeBits 0b01 2) s = .next t ∧
      (∀ i ∈ [Instr.setReadMode, .turnAround], isDirectionCommand i = true) ∧
      execAll [.setReadMode, .turnAround] t = .next u ∧ u.dir = .read ∧
      comingLevels u 2 = levelsDriven (t.trace.drop s.trace.length) :=
  ⟨by decide, by decide, _, _, rfl, by decide, rfl, by decide, by decide⟩
theorem witness_CommandsBeforeInitFault :
    stateR.fault.code = .none ∧ stateR.initDone = false ∧ Instr.readAck ≠ .init := by decide
theorem witness_DirectionIsChecked : Ready stateI ∧ stateI.dir ≠ .write ∧ stateI.dir ≠ .read ∧ 32 ≤ 32 ∧
    Ready (stateRd []) ∧ (stateRd []).dir ≠ .write ∧ Ready stateW ∧ stateW.dir ≠ .read := by decide
theorem witness_ChecksRunInOrder : stateStuck.fault.code ≠ .none ∧ stateR.fault.code = .none ∧
    decode 0x0009 0 = .illegal .reservedOp ∧ decode 0x0286 0 = .command (.readBits 40) ∧
    faultOf (.readBits 40) stateW = some .lengthOutOfRange ∧ faultOf (.readBits 32) (stateRd []) = none := by
  decide
theorem witness_FaultsArePrecise : ∃ t, exec .readAck stateW = .next t ∧ t.fault ≠ stateW.fault :=
  ⟨_, rfl, by decide⟩
/-- For the statements about any next state of a command that raised no fault. -/
theorem witness_performed_command :
    ∃ t, exec (.writeBits 0b10 2) stateW = .next t ∧ t.fault = stateW.fault := ⟨_, rfl, by decide⟩
theorem witness_OnlyInitWritesClkMode :
    (∃ t, exec .init stateR = .next t) ∧ ∃ t, Instr.clockPulse ≠ .init ∧ exec .clockPulse stateI = .next t :=
  ⟨⟨_, rfl⟩, _, by decide, rfl⟩
theorem witness_WritersOfDioMode : ∃ t, exec .turnAround stateW = .next t := ⟨_, rfl⟩
theorem witness_OnlyPulsesWriteClkOut : ∃ t, exec (.readBits 1) (stateRd [true]) = .next t := ⟨_, rfl⟩
theorem witness_OnlyWritesChangeTheLatch : (∃ t, exec (.setData false) stateW = .next t ∧
    t.fault = stateW.fault) ∧ stateW.dioMode = .out ∧ (stateRd []).dioMode = .inp :=
  ⟨⟨_, rfl, by decide⟩, by decide, by decide⟩
theorem witness_WritersOfDir : ∃ t, exec .setWriteMode stateI = .next t ∧ t.fault = stateI.fault :=
  ⟨_, rfl, by decide⟩
theorem witness_ResultsHaveOneWriter : (∃ t, exec .readAck (stateRd [true, false, false]) = .next t ∧
    t.fault = (stateRd [true, false, false]).fault) ∧ stateR.rdata = none ∧ stateR.ack = none ∧
    stateR.ackOk = none ∧ { stateR with rdata := some 0xFFFFFFFF }.rdata = some 0xFFFFFFFF ∧
    { stateR with ack := some 7 }.ack = some 7 ∧ { stateR with ackOk := some false }.ackOk = some false :=
  ⟨⟨_, rfl, by decide⟩, rfl, rfl, rfl, rfl, rfl, rfl⟩
theorem witness_CommandsLeaveCallerAndParameters :
    (∃ t, exec (.readBits 2) (stateRd [true]) = .next t ∧ t.fault = (stateRd [true]).fault) ∧
    ∃ t, exec .readAck stateW = .next t ∧ t.fault ≠ stateW.fault := ⟨⟨_, rfl, by decide⟩, _, rfl, by decide⟩
theorem witness_TraceOnlyGrows : ∃ t, step (stateI.withFetchWord 16 0x0003) = .next t := ⟨_, rfl⟩
theorem witness_RisingEdgesComeFromPulses :
    ∃ t, exec (.readBits 2) (stateRd [true, false]) = .next t ∧ t.fault = (stateRd [true, false]).fault :=
  ⟨_, rfl, by decide⟩
theorem stateW_inv : MachineInv stateW :=
  ⟨by decide, by decide, by decide, by decide, by decide, by decide, by decide, by decide, by decide, by decide⟩
theorem stateRd_inv : MachineInv (stateRd [true]) :=
  ⟨by decide, by decide, by decide, by decide, by decide, by decide, by decide, by decide, by decide, by decide⟩
theorem witness_EdgeViewOfEachCommand : MachineInv stateW ∧
    ∃ t, exec (.writeBits 0b10 2) stateW = .next t ∧ t.fault = stateW.fault := ⟨stateW_inv, _, rfl, by decide⟩
theorem witness_BitsFollowTheDirection :
    (∃ t, exec (.setData true) stateW = .next t ∧ t.trace = stateW.trace ++ [.set .dio true]) ∧
    DirMatchesMode (stateW.withFetchWord 16 0x0004) ∧ ∃ t, step (stateW.withFetchWord 16 0x0004) = .next t :=
  ⟨⟨_, rfl, by decide⟩, by decide, _, rfl⟩
theorem witness_ClockPinIsOnlyAnOutput :
    ∃ t, exec .init stateR = .next t ∧ t.trace = stateR.trace ++ [.mode .clk .out, .mode .dio .out] :=
  ⟨_, rfl, by decide⟩
theorem witness_TargetReachesOnlyTheResults : AgreeButTarget (stateRd [true]) (stateRd [false]) ∧
    ∃ t, exec (.readBits 1) (stateRd [true]) = .next t := ⟨⟨by decide, by decide⟩, _, rfl⟩
theorem witness_ElementsFollowTheirEvents : LinesFollowTrace (stateW.withFetchWord 16 0x0408) ∧
    ∃ t, step (stateW.withFetchWord 16 0x0408) = .next t := ⟨by decide, _, rfl⟩
theorem witness_EveryStepKeepsTheInvariant : MachineInv (stateW.withFetchWord 16 0x0004) ∧
    ∃ t, step (stateW.withFetchWord 16 0x0004) = .next t :=
  ⟨⟨by decide, by decide, by decide, by decide, by decide, by decide, by decide, by decide, by decide, by decide⟩,
    _, rfl⟩
theorem witness_ResetMeetsTheInvariant : create 2 3 1 = .next stateR := rfl
theorem witness_ResetWritesEveryElement : (0 : Nat) ≠ 1 ∧ 0 < 1 := by decide
theorem witness_AckBranchDecidesTheSession :
    let s := placeIssues [⟨0x0007, 0, .branchOnAck⟩] (stateRd (bits [1, 0, 0]))
    let t := placeIssues [⟨0x0007, 0, .branchOnAck⟩] (stateRd (bits [0, 1, 0]))
    (ReadyToRead s ∧ s.program[s.pc]? = some ⟨0x0007, 0, .branchOnAck⟩ ∧
      comingLevels s 3 = [true, false, false]) ∧
    ReadyToRead t ∧ t.program[t.pc]? = some ⟨0x0007, 0, .branchOnAck⟩ ∧
      comingLevels t 3 ≠ [true, false, false] := by decide
theorem witness_StoreMakesTheDeviceFound :
    let s := placeIssues [⟨0x0206, 0, .storeIdcode⟩] (stateRd [])
    ReadyToRead s ∧ s.program[s.pc]? = some ⟨0x0206, 0, .storeIdcode⟩ := by decide
theorem witness_IdcodeReadsWhenFoundAndNotAfterNoDevice :
    let s := { stateR with session := .deviceFound, idcode := some 0xBA01477F }
    let t := { stateR with session := .noDevice, idcode := some 0xBA01477F }
    (s.session = .deviceFound ∧ s.idcode = some 0xBA01477F) ∧ t.session = .noDevice ∧
      State.reset.idcode = none := ⟨by decide, by decide, rfl⟩
theorem witness_InstancesShareNothing :
    ∃ bs, stepInstance 1 [State.created 0 1 1, stateI.withFetchWord 16 0x0001] = .next bs := ⟨_, rfl⟩

end Sys2Proof.Tests
end

section
/-! SUPPORT. The statements of 00_scope.md: a step is the decoded command and what the CALLER does after
it (R7, R37), and a configuration whose pins are equal is refused (R8). -/

namespace Sys2Proof.Machine

/-- With no fault pending, the LINK's step on a command's word is that command (R67, R204). -/
theorem linkStep_of_command {cmd : CmdWord} {wdata : DataWord} {s : State} {i : Instr}
    (h0 : s.fault.code = .none) (hd : decode cmd wdata = .command i) : linkStep cmd wdata s = exec i s := by
  simp [linkStep, faultPending, h0, hd]

/-- Settles O8: the step is the issue at pc, and the LINK's answer to its word is exec of the command. -/
theorem stepRunsTheDecodedCommand : Obligations.StepRunsTheDecodedCommand := by
  intro s e i h0 he hd
  rw [step_issue h0 he, ← linkStep_of_command h0 hd]
  rfl

/-- Creation with one identifier for both pins is refused, whatever T_HALF is (R8). -/
theorem recreate_equalPins (p h : Nat) (s : State) : recreate p p h s = .refused .equalPins := by
  simp [recreate]

/-- The OPEN identifiers are distinct: PIN_DIO is below PIN_CLK or above it (R8, entry 4). -/
theorem config_pinClk_ne_pinDio : Config.pinClk ≠ Config.pinDio := by
  unfold Config.pinDio
  split <;> omega

/-- Settles O49: `recreate` checks the pins first, and reset takes the OPEN identifiers of Config. -/
theorem equalPinsAreRefused : Obligations.EqualPinsAreRefused :=
  ⟨recreate_equalPins, config_pinClk_ne_pinDio⟩

end Sys2Proof.Machine
end

section
/-! SUPPORT. The statements of 10_state.md: who writes each element of the state (R22 to R28, R37), what
no command touches, and the invariants every step keeps (R27, R30, R31). -/

namespace Sys2Proof.Machine

/-! ## What each command's pseudocode leaves, as one equation per command (R100 to R160) -/

@[simp] theorem bodyOf_init (s : State) : bodyOf .init s =
    { s with
      clkMode := .out, dioMode := .out, dir := .unknown, initDone := true
      trace := s.trace ++ [.mode .clk .out, .mode .dio .out] } := by
  simp [bodyOf, initBody, makeClockOutput, makeDataOutput, setDir, emit, follow]

@[simp] theorem bodyOf_clockPulse (s : State) : bodyOf .clockPulse s =
    { s with clkOut := some true, trace := s.trace ++ pulseEvents } :=
  pulse_eq s

@[simp] theorem bodyOf_setReadMode (s : State) : bodyOf .setReadMode s =
    { s with dioMode := .inp, dir := .read, trace := s.trace ++ [.mode .dio .inp] } := rfl

@[simp] theorem bodyOf_setWriteMode (s : State) : bodyOf .setWriteMode s =
    { s with
      dioMode := .out, dir := .write, clkOut := some true
      trace := s.trace ++ .mode .dio .out :: pulseEvents } := by
  simp [bodyOf, pulse_eq, makeDataOutput, setDir, emit, follow]

@[simp] theorem bodyOf_turnAround (s : State) : bodyOf .turnAround s =
    { s with
      dioMode := .inp, dir := .read, clkOut := some true
      trace := s.trace ++ .mode .dio .inp :: pulseEvents } := by
  simp [bodyOf, pulse_eq, makeDataInput, setDir, emit, follow]

@[simp] theorem bodyOf_writeBits (v : DataWord) (n : Nat) (s : State) : bodyOf (.writeBits v n) s =
    { s with
      clkOut := clockAfter n s.clkOut, dioOut := dataAfter v n s.dioOut
      trace := s.trace ++ writeEvents v n } := by
  simp [bodyOf, sendBits_eq, dataAfter, writeEvents, List.range_eq_range']

@[simp] theorem bodyOf_readBits (n : Nat) (s : State) : bodyOf (.readBits n) s =
    { s with
      rdata := some (receiveBits 0 n (0 : DataWord) s).1, clkOut := clockAfter n s.clkOut
      target := s.target.drop n, samples := s.samples + n
      trace := s.trace ++ readEvents (comingLevels s n) } := by
  simp [bodyOf, readBitsBody, receiveBits_state]

@[simp] theorem bodyOf_readAck (s : State) : bodyOf .readAck s =
    { s with
      ack := some (receiveBits 0 3 (0 : AckBits) s).1
      ackOk := some (ackOkFlag (receiveBits 0 3 (0 : AckBits) s).1), clkOut := some true
      target := s.target.drop 3, samples := s.samples + 3
      trace := s.trace ++ readEvents (comingLevels s 3) } := by
  simp [bodyOf, readAckBody, receiveBits_state, clockAfter]

@[simp] theorem bodyOf_setData (l : Level) (s : State) : bodyOf (.setData l) s =
    { s with dioOut := some l, trace := s.trace ++ [.set .dio l] } := rfl

/-! ## What no command's pseudocode touches -/

section
variable (i : Instr) (s : State)

@[simp] theorem bodyOf_pinClk : (bodyOf i s).pinClk = s.pinClk := by cases i <;> simp
@[simp] theorem bodyOf_pinDio : (bodyOf i s).pinDio = s.pinDio := by cases i <;> simp
@[simp] theorem bodyOf_tHalf : (bodyOf i s).tHalf = s.tHalf := by cases i <;> simp
@[simp] theorem bodyOf_fault : (bodyOf i s).fault = s.fault := by cases i <;> simp
@[simp] theorem bodyOf_session : (bodyOf i s).session = s.session := by cases i <;> simp
@[simp] theorem bodyOf_idcode : (bodyOf i s).idcode = s.idcode := by cases i <;> simp
@[simp] theorem bodyOf_pc : (bodyOf i s).pc = s.pc := by cases i <;> simp
@[simp] theorem bodyOf_program : (bodyOf i s).program = s.program := by cases i <;> simp

/-- The clock after a performed command, by the pulse table of R250. -/
theorem bodyOf_clkOut : (bodyOf i s).clkOut = clockAfter (pulsesOf i) s.clkOut := by
  cases i with
  | writeBits v n => simp [pulsesOf]
  | readBits n => simp [pulsesOf]
  | _ => simp [clockAfter, pulsesOf]

/-- A performed command uses up one of the TARGET's coming levels per sample (R44). -/
theorem bodyOf_target : (bodyOf i s).target = s.target.drop (samplesOf i) := by
  cases i <;> simp [samplesOf]

theorem bodyOf_samples : (bodyOf i s).samples = s.samples + samplesOf i := by
  cases i <;> simp [samplesOf]

end

/-! ## The checks of a command (R202 to R204) -/

theorem faultOf_ne_none {i : Instr} {s : State} {c : FaultCode} (h : faultOf i s = some c) :
    c ≠ .none := by
  cases i <;> grind [faultOf]

/-- A command other than INIT that passes its checks finds INIT_DONE set (R202). -/
theorem initDone_of_faultOf_none {i : Instr} {s : State} (hi : i ≠ .init) (h : faultOf i s = none) :
    s.initDone = true := by
  by_contra h0
  cases i <;> simp_all [faultOf]

theorem faultOf_setData_none {l : Level} {s : State} :
    faultOf (.setData l) s = none ↔ s.initDone = true ∧ s.dir = .write := by
  grind [faultOf]

theorem faultOf_writeBits_none {v : DataWord} {n : Nat} {s : State} :
    faultOf (.writeBits v n) s = none ↔ s.initDone = true ∧ n ≤ 32 ∧ s.dir = .write := by
  grind [faultOf]

theorem faultOf_readBits_none {n : Nat} {s : State} :
    faultOf (.readBits n) s = none ↔ s.initDone = true ∧ n ≤ 32 ∧ s.dir = .read := by
  grind [faultOf]

theorem faultOf_readAck_none {s : State} :
    faultOf .readAck s = none ↔ s.initDone = true ∧ s.dir = .read := by
  grind [faultOf]

/-- A command's next state, told apart by FAULT: it raised the fault of its first failing check, or it was
performed and FAULT is as before (R200, R204). -/
theorem exec_faulted_or_performed {i : Instr} {s t : State} (h : exec i s = .next t) :
    (t.fault ≠ s.fault ∧ ∃ c, faultOf i s = some c ∧ t = raise c (encodeCmd i) s) ∨
      (t.fault = s.fault ∧ faultOf i s = none ∧ t = bodyOf i s) := by
  obtain ⟨h0, ⟨c, hc, rfl⟩ | ⟨hc, rfl⟩⟩ := exec_next h
  · refine .inl ⟨fun he => faultOf_ne_none hc ?_, c, hc, rfl⟩
    rw [← h0, ← he, raise_fault]
  · exact .inr ⟨bodyOf_fault i s, hc, rfl⟩

/-- A command that left FAULT as it was has run its pseudocode. -/
theorem exec_performed {i : Instr} {s t : State} (h : exec i s = .next t) (hf : t.fault = s.fault) :
    faultOf i s = none ∧ t = bodyOf i s := by
  obtain ⟨hne, -⟩ | ⟨-, hp⟩ := exec_faulted_or_performed h
  · exact absurd hf hne
  · exact hp

/-- INIT has no check: every next state of it is its pseudocode's (R100). -/
theorem exec_init_next {s t : State} (h : exec .init s = .next t) : t = bodyOf .init s := by
  obtain ⟨-, c, hc, -⟩ | ⟨-, -, ht⟩ := exec_faulted_or_performed h
  · simp [faultOf] at hc
  · exact ht

/-! ## Who writes what (R22 to R28) -/

/-- Settles O32: a fault writes FAULT only, and among the pseudocodes only INIT's writes CLK_MODE. -/
theorem onlyInitWritesClkMode : Obligations.OnlyInitWritesClkMode := by
  refine ⟨rfl, rfl, rfl, fun s t h => by simp [exec_init_next h], fun i s t hi h => ?_⟩
  obtain ⟨-, c, -, rfl⟩ | ⟨-, -, rfl⟩ := exec_faulted_or_performed h
  · rfl
  · cases i <;> simp at hi ⊢

/-- Settles O33, command by command on the pseudocodes. -/
theorem writersOfDioMode : Obligations.WritersOfDioMode := by
  refine ⟨rfl, rfl, rfl, rfl, fun i s t h => ?_⟩
  obtain ⟨hne, c, -, rfl⟩ | ⟨-, -, rfl⟩ := exec_faulted_or_performed h
  · rw [if_pos hne, raise_dioMode]
  · cases i <;> simp

/-- Settles O34: a performed command leaves the clock as the pulse table says. -/
theorem onlyPulsesWriteClkOut : Obligations.OnlyPulsesWriteClkOut := by
  refine ⟨rfl, fun i s t h => ?_⟩
  obtain ⟨hne, c, -, rfl⟩ | ⟨-, -, rfl⟩ := exec_faulted_or_performed h
  · rw [if_pos (.inl hne), raise_clkOut]
  · simp [bodyOf_clkOut, clockAfter]

/-- Settles O35, command by command on the pseudocodes. -/
theorem onlyWritesChangeTheLatch : Obligations.OnlyWritesChangeTheLatch := by
  refine ⟨rfl, fun i s t h hf => ?_, fun s => ⟨fun hm => ?_, fun hm => ?_⟩⟩
  · obtain ⟨-, rfl⟩ := exec_performed h hf
    cases i <;> simp [dataAfter]
  · simp [dataLine, hm]
  · simp [dataLine, hm]

/-- Settles O36, command by command on the pseudocodes. -/
theorem writersOfDir : Obligations.WritersOfDir := by
  refine ⟨rfl, rfl, rfl, rfl, fun i s t h hf => ?_⟩
  obtain ⟨-, rfl⟩ := exec_performed h hf
  cases i <;> simp

/-- The writers of INIT_DONE and of the results (R28). -/
theorem exec_results {i : Instr} {s t : State} (h : exec i s = .next t) :
    (i ≠ .init → t.initDone = s.initDone) ∧ ((∀ n, i ≠ .readBits n) → t.rdata = s.rdata) ∧
      (i ≠ .readAck → t.ack = s.ack ∧ t.ackOk = s.ackOk) := by
  obtain ⟨-, c, -, rfl⟩ | ⟨-, -, rfl⟩ := exec_faulted_or_performed h
  · simp
  · cases i <;> simp

/-- ACK_OK after a performed READ_ACK (R160). -/
theorem bodyOf_readAck_ackOk (s : State) :
    ∃ a, (bodyOf .readAck s).ack = some a ∧ ((bodyOf .readAck s).ackOk = some true ↔ a = 0b001) :=
  ⟨(receiveBits 0 3 (0 : AckBits) s).1, by simp, by simp [ackOkFlag, ackOkCode]⟩

/-- Settles O37: the writers command by command, and the reads by what the element holds. -/
theorem resultsHaveOneWriter : Obligations.ResultsHaveOneWriter := by
  refine ⟨⟨rfl, rfl, rfl, rfl⟩, fun i s t h => ?_, fun s => ?_⟩
  · obtain ⟨hinit, hrdata, hack⟩ := exec_results h
    refine ⟨?_, hinit, hrdata, hack, ?_⟩
    · rintro rfl
      simp [exec_init_next h]
    · rintro rfl hf
      rw [(exec_performed h hf).2]
      exact bodyOf_readAck_ackOk s
  · simp +contextual [readRdata, readAck, readAckOk, readElement]

/-- Settles O38: frame of the pseudocodes and of a raised fault, and one coming level used per sample. -/
theorem commandsLeaveCallerAndParameters : Obligations.CommandsLeaveCallerAndParameters := by
  intro i s t h
  obtain ⟨hne, c, -, rfl⟩ | ⟨-, -, rfl⟩ := exec_faulted_or_performed h
  · refine ⟨rfl, rfl, rfl, rfl, rfl, rfl, rfl, fun he => absurd he hne, fun _ => ⟨rfl, rfl⟩⟩
  · simp [bodyOf_target, bodyOf_samples]

/-! ## pc (R37) -/

/-- The bit loop does not look at pc. -/
theorem receiveBits_pc {w : Nat} (count i : Nat) (r : BitVec w) (s : State) (k : Nat) :
    (receiveBits i count r { s with pc := k }).1 = (receiveBits i count r s).1 := by
  apply BitVec.eq_of_getLsbD_eq
  intro j hj
  simp only [receiveBits_getLsbD _ _ _ _ _ hj]
  rfl

/-- No pseudocode reads pc. -/
theorem bodyOf_setPc (i : Instr) (s : State) (k : Nat) :
    bodyOf i { s with pc := k } = { bodyOf i s with pc := k } := by
  cases i with
  | readBits n => simp [receiveBits_pc]; rfl
  | readAck => simp [receiveBits_pc]; rfl
  | _ => simp

/-- No check reads pc. -/
theorem faultOf_setPc (i : Instr) (s : State) (k : Nat) :
    faultOf i { s with pc := k } = faultOf i s := by
  cases i <;> rfl

/-- A command at another pc is the same command, with that pc kept. -/
theorem exec_setPc {i : Instr} {s t : State} (k : Nat) (h : exec i s = .next t) :
    exec i { s with pc := k } = .next { t with pc := k } := by
  obtain ⟨h0, hc⟩ := exec_next h
  rw [exec_eq_perform, faultOf_setPc]
  obtain ⟨c, hc, rfl⟩ | ⟨hc, rfl⟩ := hc
  · simp [perform, faultPending, h0, hc, raise]
  · simp [perform, faultPending, h0, hc, bodyOf_setPc]

theorem exec_pc {i : Instr} {s t : State} (h : exec i s = .next t) : t.pc = s.pc := by
  obtain ⟨-, c, -, rfl⟩ | ⟨-, -, rfl⟩ := exec_faulted_or_performed h <;> simp

theorem linkStep_pc {cmd : CmdWord} {wdata : DataWord} {s t : State}
    (h : linkStep cmd wdata s = .next t) : t.pc = s.pc := by
  obtain ⟨-, ⟨i, -, hx⟩ | ⟨-, rfl⟩⟩ := linkStep_next h
  · exact exec_pc hx
  · rfl

/-- What the CALLER does after a command writes SESSION, IDCODE and its list only (R179 to R181). -/
theorem afterCommand_frame {a : After} {s t : State} (h : afterCommand a s = .next t) :
    t = { s with session := t.session, idcode := t.idcode, program := t.program } := by
  obtain rfl | rfl | rfl | ⟨v, -, rfl⟩ := afterCommand_next h <;> rfl

theorem afterCommand_pc {a : After} {s t : State} (h : afterCommand a s = .next t) : t.pc = s.pc := by
  rw [afterCommand_frame h]

/-- Settles O11: only the count of the issue writes pc, and nothing of a command reads it. -/
theorem pcCountsIssuedCommands : Obligations.PcCountsIssuedCommands := by
  refine ⟨rfl, fun s t e he h => ?_, fun i s t k h => ⟨exec_pc h, exec_setPc k h⟩⟩
  obtain ⟨-, ⟨hn, -⟩ | ⟨e', u, -, hl, ha⟩⟩ := step_next h
  · simp [he] at hn
  · rw [afterCommand_pc ha, countIssue_pc, linkStep_pc hl]

end Sys2Proof.Machine
end

section
/-! SUPPORT. The invariants of 10_state.md: the trace only grows (R30, R212), the four line elements follow
their events (R31), bits follow the direction (R27, R45), and every step keeps the machine's invariant. -/

namespace Sys2Proof.Machine

/-! ## The events of a performed command, and the lines they leave -/

/-- The events of a performed command (R100 to R160). -/
def eventsOf : Instr → State → List Event
  | .init, _ => [.mode .clk .out, .mode .dio .out]
  | .clockPulse, _ => pulseEvents
  | .setReadMode, _ => [.mode .dio .inp]
  | .setWriteMode, _ => .mode .dio .out :: pulseEvents
  | .turnAround, _ => .mode .dio .inp :: pulseEvents
  | .writeBits v n, _ => writeEvents v n
  | .readBits n, s => readEvents (comingLevels s n)
  | .readAck, s => readEvents (comingLevels s 3)
  | .setData l, _ => [.set .dio l]

theorem bodyOf_trace (i : Instr) (s : State) : (bodyOf i s).trace = s.trace ++ eventsOf i s := by
  cases i <;> simp [eventsOf]

@[simp] theorem Lines.afterAll_pulseEvents (l : Lines) :
    l.afterAll pulseEvents = { l with clkOut := some true } := rfl

theorem Lines.afterAll_writeEvents (l : Lines) (v : DataWord) (n : Nat) :
    l.afterAll (writeEvents v n) =
      { l with clkOut := clockAfter n l.clkOut, dioOut := dataAfter v n l.dioOut } := by
  induction n with
  | zero => rfl
  | succ n ih =>
    have hsucc : writeEvents v (n + 1) =
        writeEvents v n ++ .set .dio (v.getLsbD n) :: pulseEvents := by
      simp [writeEvents, List.range_succ]
    simp [hsucc, Lines.afterAll_append, ih, Lines.after, clockAfter, dataAfter]

theorem Lines.afterAll_readEvents (l : Lines) (levels : List Level) :
    l.afterAll (readEvents levels) = { l with clkOut := clockAfter levels.length l.clkOut } := by
  induction levels generalizing l with
  | nil => rfl
  | cons d levels ih =>
    have hcons : readEvents (d :: levels) = .sample .dio d :: pulseEvents ++ readEvents levels := rfl
    simp [hcons, Lines.afterAll_append, ih, Lines.after, clockAfter]

/-- The four line elements of a performed command are what its events make of them (R31). -/
theorem bodyOf_lines (i : Instr) (s : State) :
    (bodyOf i s).lines = s.lines.afterAll (eventsOf i s) := by
  cases i with
  | writeBits v n => simp [eventsOf, Lines.afterAll_writeEvents, State.lines]
  | readBits n => simp [eventsOf, Lines.afterAll_readEvents, State.lines]
  | readAck => simp [eventsOf, Lines.afterAll_readEvents, State.lines, clockAfter]
  | _ => simp [eventsOf, State.lines, Lines.after]

theorem bodyOf_linesFollowTrace (i : Instr) {s : State} (h : LinesFollowTrace s) :
    LinesFollowTrace (bodyOf i s) := by
  show (bodyOf i s).lines = replay (bodyOf i s).trace
  rw [bodyOf_lines, bodyOf_trace, replay_append, h]

/-! ## Predicates that do not look at the CALLER -/

/-- What a raised fault and every performed command keep, every step keeps, if it does not depend on the
elements the CALLER writes (SESSION, IDCODE, pc and the list of issues). -/
theorem step_keeps_of_block {P : State → Prop}
    (hraise : ∀ c w s, P s → P (raise c w s))
    (hbody : ∀ i s, faultOf i s = none → P s → P (bodyOf i s))
    (hcaller : ∀ s session idcode pc program, P s →
      P { s with session := session, idcode := idcode, pc := pc, program := program })
    {s t : State} (hs : P s) (h : step s = .next t) : P t := by
  refine step_keeps ?_ (fun w s _ => hraise _ w s) (fun s => hcaller s _ _ _ _) ?_ hs h
  · intro i s t hs hx
    obtain ⟨-, c, -, rfl⟩ | ⟨-, hc, rfl⟩ := exec_faulted_or_performed hx
    · exact hraise _ _ _ hs
    · exact hbody _ _ hc hs
  · intro a s t hs ha
    rw [afterCommand_frame ha]
    exact hcaller s _ _ _ _ hs

/-- Settles O45: an event's write is the one R31 gives it, and nothing else writes the four elements. -/
theorem elementsFollowTheirEvents : Obligations.ElementsFollowTheirEvents := fun _ _ =>
  step_keeps_of_block (fun _ _ _ hs => hs) (fun i _ _ hs => bodyOf_linesFollowTrace i hs)
    (fun _ _ _ _ _ hs => hs)

/-! ## The trace only grows -/

/-- `t` has the parameters of `s`, and its trace goes on from that of `s`. -/
structure ExtendsTrace (s t : State) : Prop where
  pinClk : t.pinClk = s.pinClk
  pinDio : t.pinDio = s.pinDio
  tHalf : t.tHalf = s.tHalf
  trace : ∃ es, t.trace = s.trace ++ es

theorem bodyOf_extendsTrace {s u : State} (i : Instr) (h : ExtendsTrace s u) :
    ExtendsTrace s (bodyOf i u) := by
  obtain ⟨hclk, hdio, hhalf, es, htrace⟩ := h
  exact ⟨by simp [hclk], by simp [hdio], by simp [hhalf], es ++ eventsOf i u,
    by simp [bodyOf_trace, htrace]⟩

theorem step_extendsTrace {s t : State} (h : step s = .next t) : ExtendsTrace s t :=
  step_keeps_of_block (fun _ _ _ hu => ⟨hu.1, hu.2, hu.3, hu.4⟩)
    (fun i _ _ hu => bodyOf_extendsTrace i hu) (fun _ _ _ _ _ hu => ⟨hu.1, hu.2, hu.3, hu.4⟩)
    ⟨rfl, rfl, rfl, [], by simp⟩ h

/-- The HAL call of an event depends on the parameters only (R21, R212). -/
theorem ExtendsTrace.halCall_eq {s t : State} (h : ExtendsTrace s t) : halCall t = halCall s := by
  have hpin : pinId t = pinId s := by
    funext p
    cases p
    · exact h.pinClk
    · exact h.pinDio
  funext e
  cases e <;> simp [halCall, hpin, h.tHalf]

/-- Settles O39: a step appends to the trace and keeps the parameters its calls to the HAL name. -/
theorem traceOnlyGrows : Obligations.TraceOnlyGrows := by
  intro s t h
  have hext := step_extendsTrace h
  obtain ⟨es, htrace⟩ := hext.trace
  exact ⟨es, htrace, by simp [halCalls, hext.halCall_eq, htrace]⟩

/-! ## Bits follow the direction -/

/-- A performed command that drives the data pin found DIR WRITE (R45, R203). -/
theorem dir_of_set_mem {i : Instr} {s : State} {l : Level} (hc : faultOf i s = none)
    (h : .set .dio l ∈ eventsOf i s) : s.dir = .write := by
  cases i with
  | writeBits v n => exact (faultOf_writeBits_none.mp hc).2.2
  | setData b => exact (faultOf_setData_none.mp hc).2
  | _ => simp [eventsOf, pulseEvents, readEvents] at h

/-- A performed command that takes a sample found DIR READ (R45, R203). -/
theorem dir_of_sample_mem {i : Instr} {s : State} {p : Pin} {l : Level} (hc : faultOf i s = none)
    (h : .sample p l ∈ eventsOf i s) : s.dir = .read := by
  cases i with
  | readBits n => exact (faultOf_readBits_none.mp hc).2.2
  | readAck => exact (faultOf_readAck_none.mp hc).2
  | _ => simp [eventsOf, pulseEvents, writeEvents] at h

theorem bodyOf_dirMatchesMode (i : Instr) {s : State} (h : DirMatchesMode s) :
    DirMatchesMode (bodyOf i s) := by
  cases i with
  | init | setReadMode | setWriteMode | turnAround => simp
  | _ => simpa using h

/-- Settles O42: the events of a command are those of its pseudocode, or none where it faulted. -/
theorem bitsFollowTheDirection : Obligations.BitsFollowTheDirection := by
  refine ⟨fun i s t es h htrace => ?_, fun s t => step_keeps_of_block (fun _ _ _ hs => hs)
    (fun i _ _ hs => bodyOf_dirMatchesMode i hs) (fun _ _ _ _ _ hs => hs)⟩
  obtain ⟨-, c, -, rfl⟩ | ⟨-, hc, rfl⟩ := exec_faulted_or_performed h
  · simp at htrace
    simp [htrace]
  · rw [bodyOf_trace, List.append_cancel_left_eq] at htrace
    subst htrace
    exact ⟨fun _ => dir_of_set_mem hc, fun _ _ => dir_of_sample_mem hc⟩

/-! ## The discipline of the wire (R44, R45, R101, R143) -/

/-- Between two bits: the clock pin is an output and not low, and the data pin is in mode `m`. -/
abbrev Lines.Idle (m : DioMode) (l : Lines) : Prop :=
  l.clkMode = .out ∧ l.dioMode = m ∧ l.clkOut ≠ some false

/-- Blocks of events that each keep the discipline and leave what they found keep it one after another. -/
theorem disciplinedFrom_flatMap {α : Type} {P : Lines → Prop} {f : α → List Event}
    (h : ∀ a l, P l → disciplinedFrom l (f a) = true ∧ P (l.afterAll (f a))) (as : List α) {l : Lines}
    (hl : P l) : disciplinedFrom l (as.flatMap f) = true := by
  induction as generalizing l with
  | nil => rfl
  | cons a as ih =>
    obtain ⟨hd, hP⟩ := h a l hl
    rw [List.flatMap_cons, disciplinedFrom_append, hd, ih hP]
    rfl

theorem disciplinedFrom_pulseEvents {l : Lines} (hc : l.clkMode = .out) :
    disciplinedFrom l pulseEvents = true := by
  simp [pulseEvents, disciplinedFrom, Lines.admits, Lines.after, hc]

/-- One bit of the wire: an event the lines allow that leaves them idle, then its pulse. -/
theorem disciplinedFrom_bit {m : DioMode} {l : Lines} {e : Event} (ha : l.admits e = true)
    (hl : (l.after e).Idle m) :
    disciplinedFrom l (e :: pulseEvents) = true ∧ (l.afterAll (e :: pulseEvents)).Idle m := by
  obtain ⟨hclk, hdio, -⟩ := hl
  exact ⟨by simp [disciplinedFrom, ha, disciplinedFrom_pulseEvents hclk],
    by simp [Lines.Idle, hclk, hdio]⟩

theorem disciplinedFrom_writeEvents {l : Lines} (hl : l.Idle .out) (v : DataWord) (n : Nat) :
    disciplinedFrom l (writeEvents v n) = true :=
  disciplinedFrom_flatMap (P := Lines.Idle .out)
    (fun k _ h => disciplinedFrom_bit (e := .set .dio (v.getLsbD k)) (by simp [Lines.admits, h]) h) _ hl

theorem disciplinedFrom_readEvents {l : Lines} (hl : l.Idle .inp) (levels : List Level) :
    disciplinedFrom l (readEvents levels) = true :=
  disciplinedFrom_flatMap (P := Lines.Idle .inp)
    (fun d _ h => disciplinedFrom_bit (e := .sample .dio d) (by simp [Lines.admits, h]) h) _ hl

section
variable {s : State}

/-- While DIR is WRITE the data pin is an output between two commands. -/
theorem MachineInv.idle_of_write (h : MachineInv s) (hinit : s.initDone = true) (hd : s.dir = .write) :
    s.lines.Idle .out :=
  ⟨h.configuredByInit.1.mp hinit, (h.dirMatchesMode (by simp [hd])).1.mp hd, h.clockIdlesHigh⟩

/-- While DIR is READ the data pin is an input between two commands. -/
theorem MachineInv.idle_of_read (h : MachineInv s) (hinit : s.initDone = true) (hd : s.dir = .read) :
    s.lines.Idle .inp :=
  ⟨h.configuredByInit.1.mp hinit, (h.dirMatchesMode (by simp [hd])).2.mp hd, h.clockIdlesHigh⟩

/-- The events of a performed command keep the discipline from the lines it found. -/
theorem MachineInv.disciplinedFrom_eventsOf (h : MachineInv s) {i : Instr} (hc : faultOf i s = none) :
    disciplinedFrom s.lines (eventsOf i s) = true := by
  have hidle : s.lines.clkOut ≠ some false := h.clockIdlesHigh
  have hclk (hi : i ≠ .init) : s.lines.clkMode = .out :=
    h.configuredByInit.1.mp (initDone_of_faultOf_none hi hc)
  cases i with
  | init => simp [eventsOf, disciplinedFrom, Lines.admits, Lines.after, hidle]
  | clockPulse => exact disciplinedFrom_pulseEvents (hclk (by simp))
  | setReadMode => simp [eventsOf, disciplinedFrom, Lines.admits, hidle]
  | setWriteMode | turnAround =>
    simp [eventsOf, disciplinedFrom, Lines.admits, Lines.after, hidle, disciplinedFrom_pulseEvents, hclk]
  | writeBits v n =>
    obtain ⟨hinit, -, hd⟩ := faultOf_writeBits_none.mp hc
    exact disciplinedFrom_writeEvents (h.idle_of_write hinit hd) v n
  | readBits n =>
    obtain ⟨hinit, -, hd⟩ := faultOf_readBits_none.mp hc
    exact disciplinedFrom_readEvents (h.idle_of_read hinit hd) _
  | readAck =>
    obtain ⟨hinit, hd⟩ := faultOf_readAck_none.mp hc
    exact disciplinedFrom_readEvents (h.idle_of_read hinit hd) _
  | setData l =>
    obtain ⟨hinit, hd⟩ := faultOf_setData_none.mp hc
    obtain ⟨-, hdio, -⟩ := h.idle_of_write hinit hd
    simp [eventsOf, disciplinedFrom, Lines.admits, hdio, hidle]

/-- A performed command keeps the discipline of the whole trace. -/
theorem MachineInv.bodyOf_disciplined (h : MachineInv s) {i : Instr} (hc : faultOf i s = none) :
    disciplined (bodyOf i s).trace = true := by
  have hlines : Lines.reset.afterAll s.trace = s.lines := h.linesFollowTrace.symm
  have htrace : disciplinedFrom Lines.reset s.trace = true := h.wireDiscipline
  rw [bodyOf_trace, disciplined, disciplinedFrom_append, htrace, hlines, h.disciplinedFrom_eventsOf hc]
  rfl

/-! ## The machine's invariant -/

/-- A performed command leaves INIT_DONE set. -/
theorem bodyOf_initDone {i : Instr} (hc : faultOf i s = none) : (bodyOf i s).initDone = true := by
  cases i with
  | init => simp
  | _ => simpa using initDone_of_faultOf_none (by simp) hc

theorem bodyOf_configuredByInit {i : Instr} (hc : faultOf i s = none) (h : ConfiguredByInit s) :
    ConfiguredByInit (bodyOf i s) := by
  obtain ⟨hclk, hdio⟩ := h
  have hdone := bodyOf_initDone hc
  cases i <;> simp_all [ConfiguredByInit]

theorem bodyOf_clockIdlesHigh (i : Instr) (h : ClockIdlesHigh s) : ClockIdlesHigh (bodyOf i s) := by
  rw [ClockIdlesHigh, bodyOf_clkOut, clockAfter]
  split
  · exact h
  · simp

theorem bodyOf_ackOkMatchesAck (i : Instr) (h : AckOkMatchesAck s) : AckOkMatchesAck (bodyOf i s) := by
  cases i with
  | readAck => simp [AckOkMatchesAck, ackOkFlag, ackOkCode]
  | _ => simpa using h

theorem MachineInv.bodyOf (h : MachineInv s) {i : Instr} (hc : faultOf i s = none) :
    MachineInv (bodyOf i s) where
  linesFollowTrace := bodyOf_linesFollowTrace i h.linesFollowTrace
  dirMatchesMode := bodyOf_dirMatchesMode i h.dirMatchesMode
  configuredByInit := bodyOf_configuredByInit hc h.configuredByInit
  untouchedBeforeInit h0 := by simp [bodyOf_initDone hc] at h0
  clockIdlesHigh := bodyOf_clockIdlesHigh i h.clockIdlesHigh
  ackOkMatchesAck := bodyOf_ackOkMatchesAck i h.ackOkMatchesAck
  faultNamesWord := by simpa [FaultNamesWord] using h.faultNamesWord
  foundHasIdcode := by simpa [FoundHasIdcode] using h.foundHasIdcode
  goodParameters := by simpa [GoodParameters] using h.goodParameters
  wireDiscipline := h.bodyOf_disciplined hc

theorem MachineInv.raise (h : MachineInv s) {c : FaultCode} (hc : c ≠ .none) (w : CmdWord) :
    MachineInv (raise c w s) :=
  { h with faultNamesWord := by simp [FaultNamesWord, hc] }

/-- The invariant looks at the CALLER's elements only for the IDCODE of a found device. -/
theorem MachineInv.caller (h : MachineInv s) {session : SessionState} {idcode : Option DataWord}
    (hfound : session = .deviceFound → idcode.isSome = true) (pc : Nat) (program : List Issue) :
    MachineInv { s with session := session, idcode := idcode, pc := pc, program := program } :=
  { h with foundHasIdcode := hfound }

theorem exec_keeps_machineInv {i : Instr} {t : State} (h : MachineInv s) (hx : exec i s = .next t) :
    MachineInv t := by
  obtain ⟨-, c, hc, rfl⟩ | ⟨-, hc, rfl⟩ := exec_faulted_or_performed hx
  · exact h.raise (faultOf_ne_none hc) _
  · exact h.bodyOf hc

/-- What the CALLER does after a command stores an IDCODE before it reports a device (R181). -/
theorem afterCommand_keeps_machineInv {a : After} {t : State} (h : MachineInv s)
    (ha : afterCommand a s = .next t) : MachineInv t := by
  obtain rfl | rfl | rfl | ⟨v, -, rfl⟩ := afterCommand_next ha
  · exact h
  · exact h.caller (by simp) _ _
  · exact h.caller h.foundHasIdcode _ _
  · exact h.caller (by simp) _ _

end

/-- Settles O46: the invariant is kept by each command, by a raised fault, by the count of an issue and
by what the CALLER does after it. -/
theorem everyStepKeepsTheInvariant : Obligations.EveryStepKeepsTheInvariant := fun _ _ =>
  step_keeps (fun _ _ _ => exec_keeps_machineInv) (fun w _ _ h => h.raise (by simp) w)
    (fun _ h => h.caller h.foundHasIdcode _ _) (fun _ _ _ => afterCommand_keeps_machineInv)

end Sys2Proof.Machine
end

section
/-! SUPPORT. The statements of 20_memory.md: what a logic analyser records of each command (R41, R47), the
TARGET reaches the block through the levels sampled only (R44), and nothing happens of itself (R52, R53). -/

namespace Sys2Proof.Machine

/-- Settles O10: with no fault pending and no issue at pc the step is idle. -/
theorem stepIdlesWithoutAnIssue : Obligations.StepIdlesWithoutAnIssue := by
  intro s h0 hp
  have hn : nextIssue s = none := hp
  simp [step, advance, faultPending, h0, hn]

/-! ## The edge view of a command (R41, R47) -/

/-- The one rising edge of a pulse records the line as the pulse finds it (R47, R110). -/
@[simp] theorem edgesFrom_pulseEvents_append (m : DioMode) (l : Option Level) (es : List Event) :
    edgesFrom m l (pulseEvents ++ es) = edgeEntry m l :: edgesFrom m l es := by
  simp [pulseEvents, edgesFrom]

@[simp] theorem edgesFrom_pulseEvents (m : DioMode) (l : Option Level) :
    edgesFrom m l pulseEvents = [edgeEntry m l] :=
  edgesFrom_pulseEvents_append m l []

/-- On an output, each level driven and pulsed is recorded as the host's, in order (R41, R47). -/
theorem edgesFrom_drivenBits (bit : Nat → Level) (ks : List Nat) (l : Option Level) :
    edgesFrom .out l (ks.flatMap fun k => .set .dio (bit k) :: pulseEvents) =
      ks.map fun k => .host (some (bit k)) := by
  induction ks generalizing l with
  | nil => rfl
  | cons k ks ih => simp [edgesFrom, edgeEntry, ih]

/-- On an input, each sample's pulse is recorded as the TARGET's, whatever the level (R47). -/
theorem edgesFrom_readEvents (l : Option Level) (levels : List Level) :
    edgesFrom .inp l (readEvents levels) = List.replicate levels.length .target := by
  induction levels with
  | nil => rfl
  | cons d levels ih =>
    have hcons : readEvents (d :: levels) = .sample .dio d :: (pulseEvents ++ readEvents levels) := rfl
    simp [hcons, edgesFrom, edgeEntry, ih, List.replicate_succ]

/-- What the events of a performed command add to the edge view, from the lines the command finds: a
command that moves bits finds the data pin in the mode that matches DIR (R27). -/
theorem MachineInv.edgesFrom_eventsOf {s : State} (h : MachineInv s) {i : Instr}
    (hc : faultOf i s = none) : edgesFrom s.dioMode s.dioOut (eventsOf i s) = edgesOf i s := by
  cases i with
  | init | setReadMode | setData => rfl
  | clockPulse | setWriteMode | turnAround => simp [eventsOf, edgesFrom, edgesOf, edgeEntry]
  | writeBits v n =>
    obtain ⟨hinit, -, hd⟩ := faultOf_writeBits_none.mp hc
    obtain ⟨-, hout : s.dioMode = .out, -⟩ := h.idle_of_write hinit hd
    rw [hout]
    exact edgesFrom_drivenBits v.getLsbD (List.range n) s.dioOut
  | readBits n =>
    obtain ⟨hinit, -, hd⟩ := faultOf_readBits_none.mp hc
    obtain ⟨-, hinp : s.dioMode = .inp, -⟩ := h.idle_of_read hinit hd
    simp [eventsOf, edgesOf, hinp, edgesFrom_readEvents]
  | readAck =>
    obtain ⟨hinit, hd⟩ := faultOf_readAck_none.mp hc
    obtain ⟨-, hinp : s.dioMode = .inp, -⟩ := h.idle_of_read hinit hd
    simp [eventsOf, edgesOf, hinp, edgesFrom_readEvents]

/-- Settles O41: the edge view goes on from the lines the trace left, which are the state's (R31). -/
theorem edgeViewOfEachCommand : Obligations.EdgeViewOfEachCommand := by
  intro i s t h hx hf
  obtain ⟨hc, rfl⟩ := exec_performed hx hf
  have hlines : replay s.trace = s.lines := h.linesFollowTrace.symm
  rw [bodyOf_trace, edgeView_append, hlines, ← h.edgesFrom_eventsOf hc]
  rfl

/-! ## The TARGET reaches the results only (R44, R208) -/

/-- What samples and their pulses leave of the levels sampled: their number. -/
theorem readEvents_withoutDraw (levels : List Level) :
    (readEvents levels).map Event.withoutDraw = readEvents (List.replicate levels.length false) := by
  induction levels with
  | nil => rfl
  | cons d levels ih => simpa [readEvents, List.replicate_succ, pulseEvents, Event.withoutDraw] using ih

/-- The events of a command are the same in every state, but for the levels sampled. -/
theorem eventsOf_withoutDraw (i : Instr) (s t : State) :
    (eventsOf i s).map Event.withoutDraw = (eventsOf i t).map Event.withoutDraw := by
  cases i with
  | readBits | readAck => simp [eventsOf, readEvents_withoutDraw]
  | _ => rfl

section
variable {s t : State}

/-- The state that agrees with `s` is `s` but for the trace, the coming answers and the results. -/
theorem AgreeButTarget.eq_with (h : AgreeButTarget s t) :
    t = { s with
      trace := t.trace, target := t.target, rdata := t.rdata, ack := t.ack, ackOk := t.ackOk } := by
  have hs := h.sameButDrawn
  cases s
  cases t
  simp_all

theorem AgreeButTarget.fault_eq (h : AgreeButTarget s t) : t.fault = s.fault := by rw [h.eq_with]

/-- The checks of a command look at nothing that comes from the TARGET. -/
theorem AgreeButTarget.faultOf_eq (h : AgreeButTarget s t) (i : Instr) : faultOf i t = faultOf i s := by
  rw [h.eq_with]
  cases i <;> rfl

theorem AgreeButTarget.raise (h : AgreeButTarget s t) (c : FaultCode) (w : CmdWord) :
    AgreeButTarget (raise c w s) (raise c w t) := by
  refine ⟨?_, h.sameEvents⟩
  rw [h.eq_with]
  rfl

/-- A command's pseudocode writes what it draws into the trace and the results only. -/
theorem AgreeButTarget.bodyOf (h : AgreeButTarget s t) (i : Instr) :
    AgreeButTarget (bodyOf i s) (bodyOf i t) where
  sameButDrawn := by
    rw [h.eq_with]
    cases i <;> simp
  sameEvents := by simp [bodyOf_trace, h.sameEvents, eventsOf_withoutDraw i s t]

end

theorem exec_of_faultOf_some {i : Instr} {s : State} {c : FaultCode} (h0 : s.fault.code = .none)
    (hc : faultOf i s = some c) : exec i s = .next (raise c (encodeCmd i) s) := by
  simp [exec_eq_perform, perform, faultPending, h0, hc]

theorem exec_of_faultOf_none {i : Instr} {s : State} (h0 : s.fault.code = .none)
    (hc : faultOf i s = none) : exec i s = .next (bodyOf i s) := by
  simp [exec_eq_perform, perform, faultPending, h0, hc]

/-- Settles O44: the two states fail the same check, or both run the pseudocode. -/
theorem targetReachesOnlyTheResults : Obligations.TargetReachesOnlyTheResults := by
  intro i s t s' h hx
  obtain ⟨h0, ⟨c, hc, rfl⟩ | ⟨hc, rfl⟩⟩ := exec_next hx
  · exact ⟨_, exec_of_faultOf_some (h.fault_eq ▸ h0) (h.faultOf_eq i ▸ hc), h.raise c _⟩
  · exact ⟨_, exec_of_faultOf_none (h.fault_eq ▸ h0) (h.faultOf_eq i ▸ hc), h.bodyOf i⟩

end Sys2Proof.Machine
end

section
/-! SUPPORT. The statements of 30_encoding.md on command words: decode and encode are inverse on the
well-formed commands (R60, R61, R67), a word is one row of the opcode map or illegal (R64, R65), and counts
from 33 on decode and fault (R66). -/

namespace Sys2Proof

/-! ## Decode and encode (R60, R61, R67) -/

/-- The operand a command carries, if it carries one, is the value handed over beside the word (R67). -/
def Instr.carries (wdata : DataWord) (i : Instr) : Prop := ∀ v, encodeOperand i = some v → v = wdata

@[simp] theorem carries_writeBits (v wdata : DataWord) (n : Nat) :
    (Instr.writeBits v n).carries wdata ↔ v = wdata := by
  simp [Instr.carries, encodeOperand]

/-- What a command hands over as WDATA is the operand it carries. -/
theorem carries_encodeWdata (i : Instr) : i.carries (encodeWdata i) := fun v h => by
  simp [encodeWdata, h]

/-- The 6 bits of LEN hold every count up to 63 (R60). -/
theorem len_toNat {n : Nat} (h : lenEncodable n = true) : (BitVec.ofNat 6 n).toNat = n := by
  have hn : n ≤ 63 := of_decide_eq_true h
  rw [BitVec.toNat_ofNat]
  omega

/-- Every count that LEN holds is encodable (R60). -/
theorem lenEncodable_lenOperand (cmd : CmdWord) : lenEncodable (lenOperand cmd) = true :=
  decide_eq_true (Nat.le_of_lt_succ (lenField cmd).isLt)

/-- The word of a well-formed command decodes to it, beside any value that is its operand. -/
theorem decode_encodeCmd {i : Instr} {wdata : DataWord} (hwf : i.wellFormed = true)
    (hw : i.carries wdata) : decode (encodeCmd i) wdata = .command i := by
  unfold decode
  rw [if_pos (resField_encodeCmd i), opField_encodeCmd]
  cases i with
  | writeBits v n =>
    obtain rfl := (carries_writeBits v wdata n).mp hw
    simp [opCode, decodeWithLen, lvlField_encodeCmd, lenOperand, lenField_encodeCmd, len_toNat hwf]
  | readBits n =>
    simp [opCode, decodeWithLen, lvlField_encodeCmd, lenOperand, lenField_encodeCmd, len_toNat hwf]
  | setData l => simp [opCode, decodeWithLvl, lenField_encodeCmd, lvlField_encodeCmd]
  | _ => rfl

/-- Settles O1: the value handed over beside the word is the command's own operand. -/
theorem decodeOfEncodeIsTheCommand : Obligations.DecodeOfEncodeIsTheCommand := fun i hwf =>
  decode_encodeCmd hwf (carries_encodeWdata i)

theorem decodePlain_command {cmd : CmdWord} {i j : Instr} (h : decodePlain cmd j = .command i) :
    i = j ∧ lenField cmd = 0 ∧ lvlField cmd = false := by
  grind [decodePlain]

theorem decodeWithLen_command {cmd : CmdWord} {i : Instr} {f : Nat → Instr}
    (h : decodeWithLen cmd f = .command i) : i = f (lenOperand cmd) ∧ lvlField cmd = false := by
  grind [decodeWithLen]

theorem decodeWithLvl_command {cmd : CmdWord} {i : Instr} {f : Level → Instr}
    (h : decodeWithLvl cmd f = .command i) : i = f (lvlField cmd) ∧ lenField cmd = 0 := by
  grind [decodeWithLvl]

/-- A word with a command's four fields is that command's word (R60). -/
theorem encodeCmd_eq {cmd : CmdWord} {i : Instr} (hres : resField cmd = 0)
    (hop : (opField cmd).toNat = (opCode i).toNat) (hlen : lenField (encodeCmd i) = lenField cmd)
    (hlvl : lvlField (encodeCmd i) = lvlField cmd) : encodeCmd i = cmd :=
  cmd_ext ((opField_encodeCmd i).trans (BitVec.eq_of_toNat_eq hop.symm)) hlen hlvl
    ((resField_encodeCmd i).trans hres.symm)

/-- A decoded word is its command's word, and the value beside it the command's operand: each OP by the
form of its row (R64, R67). -/
theorem decode_command {cmd : CmdWord} {wdata : DataWord} {i : Instr}
    (h : decode cmd wdata = .command i) :
    encodeCmd i = cmd ∧ i.wellFormed = true ∧ i.carries wdata := by
  have hcount : BitVec.ofNat 6 (lenOperand cmd) = lenField cmd := by simp [lenOperand]
  unfold decode at h
  split at h
  case isFalse => cases h
  case isTrue hres =>
    split at h
    case h_1 hop | h_2 hop | h_3 hop | h_4 hop | h_5 hop | h_8 hop =>
      obtain ⟨rfl, hlen, hlvl⟩ := decodePlain_command h
      exact ⟨encodeCmd_eq hres hop hlen.symm hlvl.symm, rfl, fun _ hv => nomatch hv⟩
    case h_6 hop =>
      obtain ⟨rfl, hlvl⟩ := decodeWithLen_command h
      exact ⟨encodeCmd_eq hres hop ((lenField_encodeCmd _).trans hcount)
        ((lvlField_encodeCmd _).trans hlvl.symm), lenEncodable_lenOperand cmd,
        (carries_writeBits ..).mpr rfl⟩
    case h_7 hop =>
      obtain ⟨rfl, hlvl⟩ := decodeWithLen_command h
      exact ⟨encodeCmd_eq hres hop ((lenField_encodeCmd _).trans hcount)
        ((lvlField_encodeCmd _).trans hlvl.symm), lenEncodable_lenOperand cmd, fun _ hv => nomatch hv⟩
    case h_9 hop =>
      obtain ⟨rfl, hlen⟩ := decodeWithLvl_command h
      exact ⟨encodeCmd_eq hres hop ((lenField_encodeCmd _).trans hlen.symm) (lvlField_encodeCmd _),
        rfl, fun _ hv => nomatch hv⟩
    case h_10 => cases h

/-- Settles O2: the word has the four fields of its command's word. -/
theorem encodeOfDecodeIsTheWord : Obligations.EncodeOfDecodeIsTheWord := fun _ _ _ => decode_command

/-! ## The rows of the opcode map (R63 to R65) -/

/-- A word matches a row exactly when each of its fields, under the row's mask, is the row's (R64). -/
theorem matchesWord_iff {row : OpcodeRow} {cmd : CmdWord} :
    row.matchesWord cmd = true ↔
      opField cmd &&& opField row.mask = opField row.value ∧
      lenField cmd &&& lenField row.mask = lenField row.value ∧
      (lvlField cmd && lvlField row.mask) = lvlField row.value ∧
      resField cmd &&& resField row.mask = resField row.value := by
  have hop : opField (cmd &&& row.mask) = opField cmd &&& opField row.mask := BitVec.extractLsb'_and
  have hlen : lenField (cmd &&& row.mask) = lenField cmd &&& lenField row.mask := BitVec.extractLsb'_and
  have hlvl : lvlField (cmd &&& row.mask) = (lvlField cmd && lvlField row.mask) := BitVec.getLsbD_and
  have hres : resField (cmd &&& row.mask) = resField cmd &&& resField row.mask := BitVec.extractLsb'_and
  rw [OpcodeRow.matchesWord, beq_iff_eq, ← hop, ← hlen, ← hlvl, ← hres]
  constructor
  · rintro h
    simp [h]
  · rintro ⟨h1, h2, h3, h4⟩
    exact cmd_ext h1 h2 h3 h4

/-- Every row looks at the whole of OP, so a word that matches a row has the row's OP (R63). -/
theorem opField_of_matchesWord {row : OpcodeRow} {cmd : CmdWord} (hrow : row ∈ opcodeMap)
    (h : row.matchesWord cmd = true) : opField cmd = opField row.value := by
  have hmask : ∀ row ∈ opcodeMap, opField row.mask = BitVec.allOnes 4 := by decide
  rw [← (matchesWord_iff.mp h).1, hmask row hrow, BitVec.and_allOnes]

/-- Every row looks at the whole of RES and asks for 0 there (R63, R64). -/
theorem resField_of_matchesWord {row : OpcodeRow} {cmd : CmdWord} (hrow : row ∈ opcodeMap)
    (h : row.matchesWord cmd = true) : resField cmd = 0 := by
  have hmask : ∀ row ∈ opcodeMap, resField row.mask = BitVec.allOnes 5 ∧ resField row.value = 0 := by
    decide
  obtain ⟨hones, hzero⟩ := hmask row hrow
  rw [← hzero, ← (matchesWord_iff.mp h).2.2.2, hones, BitVec.and_allOnes]

/-- A row that looks at every bit is matched by its own word only. -/
theorem eq_of_matchesWord {m : Mnemonic} {value cmd : CmdWord}
    (h : OpcodeRow.matchesWord ⟨m, 0xFFFF, value⟩ cmd = true) : cmd = value :=
  BitVec.and_allOnes.symm.trans (eq_of_beq h)

/-- Settles O4: rows that one word matches have the word's OP, and no two rows share one. -/
theorem noWordMatchesTwoRows : Obligations.NoWordMatchesTwoRows := by
  intro cmd row row' hrow hrow' h h'
  have hdistinct : ∀ r ∈ opcodeMap, ∀ r' ∈ opcodeMap, opField r.value = opField r'.value → r = r' := by
    decide
  exact hdistinct row hrow row' hrow'
    ((opField_of_matchesWord hrow h).symm.trans (opField_of_matchesWord hrow' h'))

/-- A word that matches a row decodes to a command of the row's mnemonic, whatever value is beside it. -/
theorem decode_of_matchesWord {row : OpcodeRow} {cmd : CmdWord} (wdata : DataWord)
    (hrow : row ∈ opcodeMap) (h : row.matchesWord cmd = true) :
    ∃ i, decode cmd wdata = .command i ∧ mnemonicOf i = row.mnemonic := by
  have hop := opField_of_matchesWord hrow h
  have hres := resField_of_matchesWord hrow h
  obtain ⟨-, hlen, hlvl, -⟩ := matchesWord_iff.mp h
  simp only [opcodeMap, List.mem_cons, List.not_mem_nil, or_false] at hrow
  obtain rfl | rfl | rfl | rfl | rfl | rfl | rfl | rfl | rfl := hrow
  · obtain rfl := eq_of_matchesWord h; exact ⟨.init, rfl, rfl⟩
  · obtain rfl := eq_of_matchesWord h; exact ⟨.clockPulse, rfl, rfl⟩
  · obtain rfl := eq_of_matchesWord h; exact ⟨.setReadMode, rfl, rfl⟩
  · obtain rfl := eq_of_matchesWord h; exact ⟨.setWriteMode, rfl, rfl⟩
  · obtain rfl := eq_of_matchesWord h; exact ⟨.turnAround, rfl, rfl⟩
  · refine ⟨.writeBits wdata (lenOperand cmd), ?_, rfl⟩
    rw [decode, if_pos hres, hop]
    exact if_pos ((Bool.and_true _).symm.trans hlvl)
  · refine ⟨.readBits (lenOperand cmd), ?_, rfl⟩
    rw [decode, if_pos hres, hop]
    exact if_pos ((Bool.and_true _).symm.trans hlvl)
  · obtain rfl := eq_of_matchesWord h; exact ⟨.readAck, rfl, rfl⟩
  · refine ⟨.setData (lvlField cmd), ?_, rfl⟩
    rw [decode, if_pos hres, hop]
    exact if_pos (BitVec.and_allOnes.symm.trans hlen)

/-- Each command's word matches the row of its mnemonic (R63). -/
theorem encodeCmd_matches : ∀ i : Instr, Laws.MatchesItsRow.Statement i
  | .init => Laws.MatchesItsRow.init
  | .clockPulse => Laws.MatchesItsRow.clockPulse
  | .setReadMode => Laws.MatchesItsRow.setReadMode
  | .setWriteMode => Laws.MatchesItsRow.setWriteMode
  | .turnAround => Laws.MatchesItsRow.turnAround
  | .writeBits v n => Laws.MatchesItsRow.writeBits v n
  | .readBits n => Laws.MatchesItsRow.readBits n
  | .readAck => Laws.MatchesItsRow.readAck
  | .setData l => Laws.MatchesItsRow.setData l

/-- A word that decodes matches the row of its command's mnemonic (R64). -/
theorem matchesWord_of_decode {cmd : CmdWord} {wdata : DataWord} {i : Instr}
    (h : decode cmd wdata = .command i) :
    ∃ row ∈ opcodeMap, row.mnemonic = mnemonicOf i ∧ row.matchesWord cmd = true :=
  (decode_command h).1 ▸ encodeCmd_matches i

/-- A word matches a row exactly when it decodes to a command of the row's mnemonic: its command's word
matches the row of that mnemonic, and each mnemonic has one row (R64). -/
theorem matchesWord_iff_decode {row : OpcodeRow} {cmd : CmdWord} (wdata : DataWord)
    (hrow : row ∈ opcodeMap) :
    row.matchesWord cmd = true ↔ ∃ i, decode cmd wdata = .command i ∧ mnemonicOf i = row.mnemonic := by
  refine ⟨decode_of_matchesWord wdata hrow, fun ⟨i, hd, hm⟩ => ?_⟩
  have hone : ∀ r ∈ opcodeMap, ∀ r' ∈ opcodeMap, r.mnemonic = r'.mnemonic → r = r' := by decide
  obtain ⟨row', hrow', hm', h'⟩ := matchesWord_of_decode hd
  rwa [hone row hrow row' hrow' (hm.symm.trans hm'.symm)]

/-- A word that matches no row is illegal (R64, R67). -/
theorem decode_illegal_of_no_match {cmd : CmdWord} (wdata : DataWord)
    (h : ∀ row ∈ opcodeMap, row.matchesWord cmd = false) : ∃ why, decode cmd wdata = .illegal why := by
  cases hd : decode cmd wdata with
  | command i =>
    obtain ⟨row, hrow, -, hm⟩ := matchesWord_of_decode hd
    simp [h row hrow] at hm
  | illegal why => exact ⟨why, rfl⟩

/-- No row has a reserved OP (R65). -/
theorem no_match_of_reservedOp {cmd : CmdWord} (h : 9 ≤ (opField cmd).toNat) :
    ∀ row ∈ opcodeMap, row.matchesWord cmd = false := by
  intro row hrow
  have hop : ∀ row ∈ opcodeMap, (opField row.value).toNat < 9 := by decide
  rw [← Bool.not_eq_true]
  intro hm
  rw [opField_of_matchesWord hrow hm] at h
  exact absurd (hop row hrow) (Nat.not_lt.mpr h)

end Sys2Proof

namespace Sys2Proof.Machine

/-- With no fault pending, the LINK's step on an illegal word raises ILLEGAL_COMMAND (R64, R204). -/
theorem linkStep_of_illegal {cmd : CmdWord} {wdata : DataWord} {s : State} {why : Illegal}
    (h0 : s.fault.code = .none) (hd : decode cmd wdata = .illegal why) :
    linkStep cmd wdata s = .next (raise .illegalCommand cmd s) := by
  simp [linkStep, faultPending, h0, hd]

/-- Settles O3: the rows are what the decoder reads, and a word outside them all is illegal. -/
theorem wordsAreOneRowOrIllegal : Obligations.WordsAreOneRowOrIllegal := by
  intro cmd wdata
  refine ⟨fun _ hrow => matchesWord_iff_decode wdata hrow, fun hnone s h0 => ?_, no_match_of_reservedOp⟩
  obtain ⟨why, hd⟩ := decode_illegal_of_no_match wdata hnone
  exact linkStep_of_illegal h0 hd

/-- Settles O5: each word is evaluated. -/
theorem wordsOfTheTableDecode : Obligations.WordsOfTheTableDecode := by
  unfold Obligations.WordsOfTheTableDecode
  decide

/-- Settles O9: the block raises the fault, the issue is counted, and the CALLER does nothing more. -/
theorem stepRaisesIllegalCommand : Obligations.StepRaisesIllegalCommand := by
  intro s e why h0 he hd
  rw [step_issue h0 he, issueCommand, linkStep_of_illegal h0 hd]
  rfl

/-! ## The range of a count (R66) -/

/-- Once INIT has run a count from 33 on is the first check to fail, whatever DIR is (R66, R204). -/
theorem faultOf_writeBits_long {v : DataWord} {n : Nat} {s : State} (hinit : s.initDone = true)
    (hn : 33 ≤ n) : faultOf (.writeBits v n) s = some .lengthOutOfRange := by
  simp [faultOf, hinit, Nat.lt_of_succ_le hn]

/-- The same check of READ_BITS (R66, R204). -/
theorem faultOf_readBits_long {n : Nat} {s : State} (hinit : s.initDone = true) (hn : 33 ≤ n) :
    faultOf (.readBits n) s = some .lengthOutOfRange := by
  simp [faultOf, hinit, Nat.lt_of_succ_le hn]

/-- Settles O6: a long count has a word and fails the length check; the loops over 0 bits do nothing. -/
theorem longCountsDecodeAndFault : Obligations.LongCountsDecodeAndFault := by
  refine ⟨fun n v h33 h63 => ?_, fun v s ⟨⟨h0, hinit⟩, hdir⟩ => ?_, fun s ⟨⟨h0, hinit⟩, hdir⟩ => ?_⟩
  · have hwf : lenEncodable n = true := decide_eq_true h63
    refine ⟨decode_encodeCmd (i := .writeBits v n) hwf ((carries_writeBits ..).mpr rfl),
      decode_encodeCmd (i := .readBits n) hwf (fun _ hv => nomatch hv), fun s ⟨h0, hinit⟩ => ⟨?_, ?_⟩⟩
    · exact exec_of_faultOf_some h0 (faultOf_writeBits_long hinit h33)
    · exact exec_of_faultOf_some h0 (faultOf_readBits_long hinit h33)
  · exact exec_of_faultOf_none h0 (faultOf_writeBits_none.mpr ⟨hinit, Nat.zero_le _, hdir⟩)
  · exact exec_of_faultOf_none h0 (faultOf_readBits_none.mpr ⟨hinit, Nat.zero_le _, hdir⟩)

end Sys2Proof.Machine
end

section
/-! SUPPORT. The assembler form of 30_encoding.md (R68): the line written for a command is cut at the blanks
and commas it was joined with, and each operand's text reads back as the operand. -/

namespace Sys2Proof.Machine

/-! ## Numbers read back -/

/-- The digits `ds`, the most significant first, write `n` in the base. -/
structure WritesNumber (base n : Nat) (ds : List Nat) : Prop where
  nonempty : ds ≠ []
  digits : ∀ d ∈ ds, d < base
  value : ds.foldl (fun acc d => base * acc + d) 0 = n

theorem digitValue_digitChar {d : Nat} (h : d < 16) : digitValue (digitChar d) = some d := by
  have hall : ∀ d < 16, digitValue (digitChar d) = some d := by decide
  exact hall d h

theorem readDigits_map_digitChar {base : Nat} (hbase : base ≤ 16) {ds : List Nat}
    (h : ∀ d ∈ ds, d < base) (acc : Nat) :
    readDigits base acc (ds.map digitChar) = some (ds.foldl (fun acc d => base * acc + d) acc) := by
  induction ds generalizing acc with
  | nil => rfl
  | cons d ds ih =>
    obtain ⟨hd, hds⟩ := List.forall_mem_cons.mp h
    simp [readDigits, digitValue_digitChar (Nat.lt_of_lt_of_le hd hbase), hd, ih hds]

theorem WritesNumber.readDigits_eq {base n : Nat} {ds : List Nat} (h : WritesNumber base n ds)
    (hbase : base ≤ 16) : readDigits base 0 (ds.map digitChar) = some n := by
  rw [readDigits_map_digitChar hbase h.digits, h.value]

/-- The one or two digits of a count. -/
theorem writeCount_digits {n : Nat} (h : n < 100) :
    ∃ ds, WritesNumber 10 n ds ∧ writeCount n = ds.map digitChar := by
  by_cases hn : n < 10
  · exact ⟨[n], ⟨by simp, by simpa using hn, by simp⟩, if_pos hn⟩
  · refine ⟨[n / 10, n % 10], ⟨by simp, ?_, ?_⟩, if_neg hn⟩
    · simp only [List.forall_mem_cons]
      exact ⟨by omega, by omega, by simp⟩
    · simp only [List.foldl]
      omega

/-- The last `k` digits of a number, read on from what stands before them, give the number. -/
theorem foldl_digits (base n k : Nat) :
    ((List.range k).reverse.map fun j => n / base ^ j % base).foldl (fun acc d => base * acc + d)
      (n / base ^ k) = n := by
  induction k with
  | zero => simp
  | succ k ih =>
    have hstep : base * (n / base ^ (k + 1)) + n / base ^ k % base = n / base ^ k := by
      rw [Nat.pow_succ, ← Nat.div_div_eq_div_mul, Nat.div_add_mod]
    simpa [List.range_succ, hstep] using ih

/-- The eight hexadecimal digits of a value. -/
theorem writeValue_digits (v : DataWord) :
    ∃ ds, WritesNumber 16 v.toNat ds ∧ writeValue v = '0' :: 'x' :: ds.map digitChar := by
  refine ⟨[7, 6, 5, 4, 3, 2, 1, 0].map fun k => v.toNat / 16 ^ k % 16, ⟨by simp, ?_, ?_⟩, ?_⟩
  · exact List.forall_mem_map.mpr fun k _ => Nat.mod_lt _ (by decide)
  · have h0 : v.toNat / 16 ^ 8 = 0 := Nat.div_eq_of_lt v.isLt
    have h := foldl_digits 16 v.toNat 8
    rwa [h0] at h
  · rw [List.map_map]
    rfl

theorem below_some {bound n : Nat} (h : n < bound) : below bound (some n) = some n := if_pos h

theorem readDecimal_writeCount {n : Nat} (h : n < 100) : readDecimal (writeCount n) = some n := by
  obtain ⟨ds, hds, hw⟩ := writeCount_digits h
  obtain ⟨d, rest, rfl⟩ := List.exists_cons_of_ne_nil hds.nonempty
  rw [hw]
  exact hds.readDigits_eq (by decide)

theorem readValue_writeValue (v : DataWord) : readValue (writeValue v) = some v := by
  obtain ⟨ds, hds, hw⟩ := writeValue_digits v
  obtain ⟨d, rest, rfl⟩ := List.exists_cons_of_ne_nil hds.nonempty
  have hn : readNumber (writeValue v) = some v.toNat := by
    rw [hw]
    exact hds.readDigits_eq (by decide)
  simp [readValue, hn, below_some v.isLt]

/-- A writable command's operands read back as its operands (R68). -/
theorem assembleCommand_writeOperands {i : Instr} (h : writable i = true) :
    assembleCommand (mnemonicOf i) (writeOperands i) = some i := by
  cases i with
  | writeBits v n =>
    have hn : n ≤ 32 := of_decide_eq_true h
    have hc : readCount (writeCount n) = some n := by
      rw [readCount, readDecimal_writeCount (by omega)]
      exact below_some (Nat.lt_add_one_of_le hn)
    simp [assembleCommand, mnemonicOf, writeOperands, readValue_writeValue, hc]
  | readBits n =>
    have hn : n ≤ 63 := of_decide_eq_true h
    have hc : readEncodableCount (writeCount n) = some n := by
      rw [readEncodableCount, readDecimal_writeCount (by omega)]
      exact below_some (Nat.lt_add_one_of_le hn)
    simp [assembleCommand, mnemonicOf, writeOperands, hc]
  | setData l => cases l <;> rfl
  | _ => rfl

/-! ## Texts of mnemonics and operands -/

/-- A character with no meaning to the assembler of its own: no blank, no comma, no comment (R68). -/
def isTextChar (c : Char) : Bool := !isBlank c && c != ',' && c != ';'

/-- The text of a mnemonic or an operand: it is not empty and holds text characters only. -/
def IsText (cs : List Char) : Prop := cs ≠ [] ∧ ∀ c ∈ cs, isTextChar c = true

theorem isTextChar_iff {c : Char} : isTextChar c = true ↔ isBlank c = false ∧ c ≠ ',' ∧ c ≠ ';' := by
  simp [isTextChar, and_assoc]

theorem isText_of_all {cs : List Char} (hne : cs ≠ []) (h : cs.all isTextChar = true) : IsText cs :=
  ⟨hne, List.all_eq_true.mp h⟩

theorem isText_spell (m : Mnemonic) : IsText (spell m) := by
  cases m <;> exact isText_of_all (List.cons_ne_nil _ _) rfl

theorem isTextChar_digitChar {d : Nat} (h : d < 16) : isTextChar (digitChar d) = true := by
  have hall : ∀ d < 16, isTextChar (digitChar d) = true := by decide
  exact hall d h

theorem isTextChar_map_digitChar {base n : Nat} {ds : List Nat} (h : WritesNumber base n ds)
    (hbase : base ≤ 16) : ∀ c ∈ ds.map digitChar, isTextChar c = true :=
  List.forall_mem_map.mpr fun d hd => isTextChar_digitChar (Nat.lt_of_lt_of_le (h.digits d hd) hbase)

theorem isText_writeCount {n : Nat} (h : n < 100) : IsText (writeCount n) := by
  obtain ⟨ds, hds, hw⟩ := writeCount_digits h
  rw [hw]
  exact ⟨by simpa using hds.nonempty, isTextChar_map_digitChar hds (by decide)⟩

theorem isText_writeValue (v : DataWord) : IsText (writeValue v) := by
  obtain ⟨ds, hds, hw⟩ := writeValue_digits v
  rw [hw]
  refine ⟨by simp, List.forall_mem_cons.mpr ⟨by decide, List.forall_mem_cons.mpr ⟨by decide, ?_⟩⟩⟩
  exact isTextChar_map_digitChar hds (by decide)

theorem isText_writeOperands {i : Instr} (h : writable i = true) : ∀ cs ∈ writeOperands i, IsText cs := by
  cases i with
  | writeBits v n =>
    have hn : n ≤ 32 := of_decide_eq_true h
    simpa [writeOperands] using ⟨isText_writeValue v, isText_writeCount (by omega)⟩
  | readBits n =>
    have hn : n ≤ 63 := of_decide_eq_true h
    simpa [writeOperands] using isText_writeCount (by omega)
  | setData l =>
    have h0 : IsText ['0'] := isText_of_all (List.cons_ne_nil _ _) rfl
    have h1 : IsText ['1'] := isText_of_all (List.cons_ne_nil _ _) rfl
    cases l <;> simp [writeOperands, h0, h1]
  | _ => simp [writeOperands]

/-! ## Blanks at the ends of a text -/

/-- The text neither begins nor ends with a blank. -/
def IsTrimmed (cs : List Char) : Prop :=
  (∀ c ∈ cs.head?, isBlank c = false) ∧ ∀ c ∈ cs.getLast?, isBlank c = false

theorem IsText.isTrimmed {cs : List Char} (h : IsText cs) : IsTrimmed cs :=
  ⟨fun c hc => (isTextChar_iff.mp (h.2 c (List.mem_of_mem_head? hc))).1,
    fun c hc => (isTextChar_iff.mp (h.2 c (List.mem_of_mem_getLast? hc))).1⟩

theorem IsText.noComment {cs : List Char} (h : IsText cs) : ∀ c ∈ cs, c ≠ ';' := fun c hc =>
  (isTextChar_iff.mp (h.2 c hc)).2.2

/-- What stands between two trimmed texts may be anything. -/
theorem IsTrimmed.append {as bs : List Char} (ha : IsTrimmed as) (hb : IsTrimmed bs) (hane : as ≠ [])
    (hbne : bs ≠ []) (mid : List Char) : IsTrimmed (as ++ mid ++ bs) := by
  refine ⟨?_, ?_⟩
  · rw [List.append_assoc, List.head?_append_of_ne_nil _ hane]
    exact ha.1
  · rw [List.getLast?_append_of_ne_nil _ hbne]
    exact hb.2

theorem dropWhile_isBlank {cs : List Char} (h : ∀ c ∈ cs.head?, isBlank c = false) :
    cs.dropWhile isBlank = cs := by
  cases cs with
  | nil => rfl
  | cons c cs => simp [h c rfl]

theorem trimBlanks_of_isTrimmed {cs : List Char} (h : IsTrimmed cs) : trimBlanks cs = cs := by
  rw [trimBlanks, dropWhile_isBlank h.1, dropWhile_isBlank (by simpa using h.2), List.reverse_reverse]

theorem trimBlanks_blank_cons {b : Char} (hb : isBlank b = true) (cs : List Char) :
    trimBlanks (b :: cs) = trimBlanks cs := by
  simp [trimBlanks, hb]

/-! ## Operands joined by commas -/

theorem joinOperands_cons (cs : List Char) {rest : List (List Char)} (h : rest ≠ []) :
    joinOperands (cs :: rest) = cs ++ [',', ' '] ++ joinOperands rest := by
  cases rest with
  | nil => exact absurd rfl h
  | cons ds rest => rfl

section
variable {ops : List (List Char)}

theorem isTrimmed_joinOperands (hne : ops ≠ []) (h : ∀ cs ∈ ops, IsText cs) :
    joinOperands ops ≠ [] ∧ IsTrimmed (joinOperands ops) := by
  induction ops with
  | nil => exact absurd rfl hne
  | cons cs rest ih =>
    obtain ⟨hcs, hrest⟩ := List.forall_mem_cons.mp h
    by_cases hr : rest = []
    · subst hr
      exact ⟨hcs.1, hcs.isTrimmed⟩
    · obtain ⟨hj, ht⟩ := ih hr hrest
      rw [joinOperands_cons cs hr]
      exact ⟨by simp, hcs.isTrimmed.append ht hcs.1 hj _⟩

theorem joinOperands_noComment (h : ∀ cs ∈ ops, IsText cs) : ∀ c ∈ joinOperands ops, c ≠ ';' := by
  induction ops with
  | nil => simp [joinOperands]
  | cons cs rest ih =>
    obtain ⟨hcs, hrest⟩ := List.forall_mem_cons.mp h
    by_cases hr : rest = []
    · subst hr
      exact hcs.noComment
    · rw [joinOperands_cons cs hr]
      simp only [List.forall_mem_append]
      exact ⟨⟨hcs.noComment, by simp⟩, ih hrest⟩

end

theorem piecesBetween_ne_nil (p : Char → Bool) (cs : List Char) : piecesBetween p cs ≠ [] := by
  cases cs with
  | nil => simp [piecesBetween]
  | cons c cs =>
    unfold piecesBetween
    split <;> simp

theorem piecesBetween_cons {p : Char → Bool} {c : Char} (hc : p c = false) {cs piece : List Char}
    {pieces : List (List Char)} (h : piecesBetween p cs = piece :: pieces) :
    piecesBetween p (c :: cs) = (c :: piece) :: pieces := by
  simp [piecesBetween, hc, h]

/-- A text without separators is one piece. -/
theorem piecesBetween_text {p : Char → Bool} {cs : List Char} (h : ∀ c ∈ cs, p c = false) :
    piecesBetween p cs = [cs] := by
  induction cs with
  | nil => rfl
  | cons c cs ih =>
    obtain ⟨hc, hcs⟩ := List.forall_mem_cons.mp h
    exact piecesBetween_cons hc (ih hcs)

/-- The first separator ends the first piece. -/
theorem piecesBetween_append {p : Char → Bool} {cs : List Char} (h : ∀ c ∈ cs, p c = false) {sep : Char}
    (hsep : p sep = true) (rest : List Char) :
    piecesBetween p (cs ++ sep :: rest) = cs :: piecesBetween p rest := by
  induction cs with
  | nil => simp [piecesBetween, hsep]
  | cons c cs ih =>
    obtain ⟨hc, hcs⟩ := List.forall_mem_cons.mp h
    exact piecesBetween_cons hc (ih hcs)

/-- A blank at the front of a text makes no difference once the pieces are trimmed. -/
theorem trimmed_pieces_blank_cons {p : Char → Bool} {b : Char} (hb : isBlank b = true) (hp : p b = false)
    (cs : List Char) :
    (piecesBetween p (b :: cs)).map trimBlanks = (piecesBetween p cs).map trimBlanks := by
  obtain ⟨piece, pieces, h⟩ := List.exists_cons_of_ne_nil (piecesBetween_ne_nil p cs)
  rw [piecesBetween_cons hp h, h, List.map_cons, List.map_cons, trimBlanks_blank_cons hb]

/-- Operands joined by commas are found again between the commas (R68). -/
theorem trimmed_pieces_joinOperands {ops : List (List Char)} (hne : ops ≠ []) (h : ∀ cs ∈ ops, IsText cs) :
    (piecesBetween (· == ',') (joinOperands ops)).map trimBlanks = ops := by
  induction ops with
  | nil => exact absurd rfl hne
  | cons cs rest ih =>
    obtain ⟨hcs, hrest⟩ := List.forall_mem_cons.mp h
    have hcomma : ∀ c ∈ cs, (c == ',') = false := fun c hc =>
      beq_false_of_ne (isTextChar_iff.mp (hcs.2 c hc)).2.1
    have htrim : trimBlanks cs = cs := trimBlanks_of_isTrimmed hcs.isTrimmed
    by_cases hr : rest = []
    · subst hr
      rw [joinOperands, piecesBetween_text hcomma, List.map_singleton, htrim]
    · rw [joinOperands_cons cs hr, List.append_assoc, List.cons_append,
        piecesBetween_append hcomma (by decide), List.map_cons, htrim, List.singleton_append,
        trimmed_pieces_blank_cons (by decide) (by decide), ih hr hrest]

theorem operandTexts_of_ne_nil {cs : List Char} (h : trimBlanks cs ≠ []) :
    operandTexts cs = (piecesBetween (· == ',') (trimBlanks cs)).map trimBlanks := by
  unfold operandTexts
  split
  · contradiction
  · next heq => rw [heq]

theorem operandTexts_blank_joinOperands {ops : List (List Char)} (hne : ops ≠ [])
    (h : ∀ cs ∈ ops, IsText cs) : operandTexts (' ' :: joinOperands ops) = ops := by
  obtain ⟨hj, ht⟩ := isTrimmed_joinOperands hne h
  have htrim : trimBlanks (' ' :: joinOperands ops) = joinOperands ops := by
    rw [trimBlanks_blank_cons (by decide), trimBlanks_of_isTrimmed ht]
  rw [operandTexts_of_ne_nil (by rwa [htrim]), htrim, trimmed_pieces_joinOperands hne h]

/-! ## Lines -/

theorem find_spell (m : Mnemonic) : allMnemonics.find? (spell · == spell m) = some m := by
  cases m <;> rfl

/-- A line whose text is a mnemonic, alone or before a blank, is that command with the operands after it. -/
theorem assembleLine_of_lineText {line tail : List Char} {m : Mnemonic}
    (h : lineText line = spell m ++ tail) (hb : ∀ c ∈ tail.head?, isBlank c = true) :
    assembleLine line = (assembleCommand m (operandTexts tail)).map fun i => [.command i] := by
  obtain ⟨hm, hchars⟩ := isText_spell m
  have hne : lineText line ≠ [] := by simp [h, hm]
  have htail : tail.takeWhile (fun c => !isBlank c) = [] := by
    cases tail with
    | nil => rfl
    | cons c cs => simp [hb c rfl]
  have hname : (lineText line).takeWhile (fun c => !isBlank c) = spell m := by
    rw [h, List.takeWhile_append_of_pos fun c hc => by simp [(isTextChar_iff.mp (hchars c hc)).1],
      htail, List.append_nil]
  simp only [assembleLine]
  rw [if_neg hne, hname, find_spell, h, List.drop_left]

theorem lineText_eq_self {line : List Char} (hc : ∀ c ∈ line, c ≠ ';') (ht : IsTrimmed line) :
    lineText line = line := by
  rw [lineText, List.takeWhile_eq_self_iff.mpr (by simpa using hc), trimBlanks_of_isTrimmed ht]

/-- A line written with operand texts is the command of its mnemonic and those operands (R68). -/
theorem assembleLine_writeLine {i : Instr} (h : ∀ cs ∈ writeOperands i, IsText cs) :
    assembleLine (writeLine i) =
      (assembleCommand (mnemonicOf i) (writeOperands i)).map fun i => [.command i] := by
  have hm := isText_spell (mnemonicOf i)
  unfold writeLine
  split
  case h_1 hops =>
    rw [hops]
    exact assembleLine_of_lineText (tail := [])
      ((lineText_eq_self hm.noComment hm.isTrimmed).trans (List.append_nil _).symm) (by simp)
  case h_2 hops =>
    obtain ⟨hj, ht⟩ := isTrimmed_joinOperands hops h
    have hline : lineText (spell (mnemonicOf i) ++ [' '] ++ joinOperands (writeOperands i)) =
        spell (mnemonicOf i) ++ ' ' :: joinOperands (writeOperands i) := by
      rw [lineText_eq_self ?_ (hm.isTrimmed.append ht hm.1 hj _), List.append_assoc,
        List.singleton_append]
      simp only [List.forall_mem_append]
      exact ⟨⟨hm.noComment, by simp⟩, joinOperands_noComment h⟩
    rw [assembleLine_of_lineText hline (by simp [isBlank]), operandTexts_blank_joinOperands hops h]

/-- Settles O7: the assembler finds the mnemonic and the operand texts again, and they read back. -/
theorem assemblerFormReadsBack : Obligations.AssemblerFormReadsBack := by
  intro i h
  rw [assembleLine_writeLine (isText_writeOperands h), assembleCommand_writeOperands h]
  rfl

end Sys2Proof.Machine
end

section
/-! SUPPORT. The statements of 40_init.md: INIT configures both pins (R100), and the clock pin is configured
by INIT alone, always as an output, and never sampled (R101). -/

namespace Sys2Proof.Machine

/-! ## Events on the clock pin (R101) -/

/-- What a command appends to the trace: nothing where it faulted, else the events of its pseudocode
(R200, R204). -/
theorem exec_events {i : Instr} {s t : State} {es : List Event} (h : exec i s = .next t)
    (htrace : t.trace = s.trace ++ es) : es = [] ∨ es = eventsOf i s := by
  obtain ⟨-, c, -, rfl⟩ | ⟨-, -, rfl⟩ := exec_faulted_or_performed h
  · exact .inl (List.self_eq_append_right.mp htrace)
  · rw [bodyOf_trace, List.append_cancel_left_eq] at htrace
    exact .inr htrace.symm

/-- Among the pseudocodes only INIT's gives the clock pin a mode, and it makes it an output. -/
theorem eq_init_of_clkMode_mem {i : Instr} {s : State} {m : PinMode}
    (h : .mode .clk m ∈ eventsOf i s) : i = .init ∧ m = .out := by
  cases i with
  | init => exact ⟨rfl, by simpa [eventsOf] using h⟩
  | _ => simp [eventsOf, pulseEvents, writeEvents, readEvents] at h

/-- Every sample of a pseudocode is taken on the data pin (R44). -/
theorem clkSample_not_mem (i : Instr) (s : State) (l : Level) : .sample .clk l ∉ eventsOf i s := by
  cases i <;> simp [eventsOf, pulseEvents, writeEvents, readEvents]

/-- Settles O43: a faulted command appends no event, and a performed one those of its pseudocode. -/
theorem clockPinIsOnlyAnOutput : Obligations.ClockPinIsOnlyAnOutput := by
  intro i s t es h htrace
  obtain rfl | rfl := exec_events h htrace
  · simp
  · exact ⟨fun _ => eq_init_of_clkMode_mem, clkSample_not_mem i s⟩

/-! ## INIT (R100) -/

/-- A pending fault stops every command (R205). -/
theorem exec_of_faultPending {s : State} (i : Instr) (h : s.fault.code ≠ .none) :
    exec i s = .fault (.stuck s.fault.code s.fault.cmd) := by
  simp [exec_eq_perform, perform, faultPending, h, stuck]

/-- Settles O13: INIT fails no check, so its next state is its pseudocode's, unless a fault is pending. -/
theorem initConfiguresBothPins : Obligations.InitConfiguresBothPins := by
  refine ⟨rfl, fun s h0 => ?_, fun _ => exec_of_faultPending .init⟩
  rw [exec_of_faultOf_none h0 rfl, bodyOf_init]

end Sys2Proof.Machine
end

section
/-! SUPPORT. The statements of 41_clock.md: CLOCK_PULSE is one low and high cycle (R110), and every rising
edge and every delay comes from a pulse of a performed command (R112, R250). -/

namespace Sys2Proof.Machine

/-! ## CLOCK_PULSE (R110) -/

theorem faultOf_clockPulse_none {s : State} : faultOf .clockPulse s = none ↔ s.initDone = true := by
  simp [faultOf]

/-- A command other than INIT fails its first check before INIT (R202, R204). -/
theorem faultOf_of_not_initDone {i : Instr} {s : State} (hi : i ≠ .init) (h : s.initDone = false) :
    faultOf i s = some .notInitialized := by
  cases i with
  | init => exact absurd rfl hi
  | _ => exact if_pos h

/-- Settles O14: after INIT no check fails and the pulse runs; before INIT the one check fails. -/
theorem clockPulseIsOneCycle : Obligations.ClockPulseIsOneCycle := by
  refine ⟨rfl, ?_, edgesFrom_pulseEvents, fun s h0 hinit => ?_⟩
  · rintro s ⟨h0, hinit⟩
    rw [exec_of_faultOf_none h0 (faultOf_clockPulse_none.mpr hinit), bodyOf_clockPulse]
    rfl
  · exact exec_of_faultOf_some h0 (faultOf_of_not_initDone (by simp) hinit)

/-! ## Rising edges and delays (R112, R250) -/

/-- A bit is one event and its pulse (R142, R145): any other event occurs in a run of bits as often as in
their pulses. -/
theorem count_bits {α : Type} {bit : α → Event} {e : Event} (h : ∀ a, bit a ≠ e) (as : List α) :
    (as.flatMap fun a => bit a :: pulseEvents).count e = as.length * pulseEvents.count e := by
  induction as with
  | nil => simp
  | cons a as ih => simp [ih, h a, Nat.succ_mul, Nat.add_comm]

/-- A performed command emits the events of a pulse in its pulses only, as many times as R250 gives it. -/
theorem count_eventsOf {e : Event} (he : e ∈ pulseEvents) (i : Instr) (s : State) :
    (eventsOf i s).count e = pulsesOf i * pulseEvents.count e := by
  have hne {d : Event} (hd : d ∉ pulseEvents) : d ≠ e := fun h => hd (h ▸ he)
  have hmode (p : Pin) (m : PinMode) : .mode p m ≠ e := hne (by simp [pulseEvents])
  have hdata (l : Level) : .set .dio l ≠ e := hne (by simp [pulseEvents])
  have hsample (p : Pin) (l : Level) : .sample p l ≠ e := hne (by simp [pulseEvents])
  cases i with
  | init | clockPulse | setReadMode | setWriteMode | turnAround => simp [eventsOf, pulsesOf, hmode]
  | setData l => simp [eventsOf, pulsesOf, hdata]
  | writeBits v n =>
    simpa [eventsOf, writeEvents, pulsesOf] using count_bits (fun _ => hdata _) (List.range n)
  | readBits n => simpa [eventsOf, readEvents, pulsesOf] using count_bits (hsample .dio) (comingLevels s n)
  | readAck => simpa [eventsOf, readEvents, pulsesOf] using count_bits (hsample .dio) (comingLevels s 3)

/-- Settles O40: a pulse holds one rising edge and two delays, and no other event of a command is either. -/
theorem risingEdgesComeFromPulses : Obligations.RisingEdgesComeFromPulses := by
  intro i s t hx hf
  obtain ⟨-, rfl⟩ := exec_performed hx hf
  have hcount {e : Event} (he : e ∈ pulseEvents) :
      (bodyOf i s).trace.count e = s.trace.count e + pulsesOf i * pulseEvents.count e := by
    rw [bodyOf_trace, List.count_append, count_eventsOf he]
  have hedge : pulseEvents.count (.set .clk true) = 1 := rfl
  have hdelay : pulseEvents.count .delay = 2 := rfl
  refine ⟨?_, ?_⟩
  · rw [risingEdges, risingEdges, hcount (by decide), hedge, Nat.mul_one]
  · rw [delays, delays, hcount (by decide), hdelay, Nat.mul_comm]

end Sys2Proof.Machine
end

section
/-! SUPPORT. The statements of 42_direction.md: the three direction commands (R120, R122, R124), and
TURN_AROUND as SET_READ_MODE followed by CLOCK_PULSE. -/

namespace Sys2Proof.Machine

/-! ## A command after INIT and before it (R202) -/

/-- The direction commands check INIT_DONE alone: they are legal with any DIR (R120, R122, R124). -/
theorem faultOf_direction_none {i : Instr} {s : State} (hi : isDirectionCommand i = true) :
    faultOf i s = none ↔ s.initDone = true := by
  cases i with
  | setReadMode | setWriteMode | turnAround => simp [faultOf]
  | _ => cases hi

theorem exec_direction_of_ready {i : Instr} {s : State} (hi : isDirectionCommand i = true)
    (h : Ready s) : exec i s = .next (bodyOf i s) :=
  exec_of_faultOf_none h.1 ((faultOf_direction_none hi).mpr h.2)

theorem exec_of_not_initDone {i : Instr} {s : State} (hi : i ≠ .init) (h0 : s.fault.code = .none)
    (hinit : s.initDone = false) :
    exec i s = .next { s with fault := ⟨.notInitialized, some (encodeCmd i)⟩ } :=
  exec_of_faultOf_some h0 (faultOf_of_not_initDone hi hinit)

/-! ## The direction commands (R120, R122, R124) -/

/-- Settles O15: after INIT the pseudocode runs, without a pulse; before INIT the one check fails. -/
theorem setReadModeReleasesTheLine : Obligations.SetReadModeReleasesTheLine := by
  refine ⟨rfl, fun s h => ?_, fun s => exec_of_not_initDone (by simp)⟩
  rw [exec_direction_of_ready rfl h, bodyOf_setReadMode]

/-- Settles O16: the one rising edge comes after the `Mode` event, and finds the latch driven. -/
theorem setWriteModeDrivesThenPulses : Obligations.SetWriteModeDrivesThenPulses := by
  refine ⟨rfl, fun s h => ?_, fun _ => edgesFrom_pulseEvents .out,
    fun s => exec_of_not_initDone (by simp)⟩
  rw [exec_direction_of_ready rfl h, bodyOf_setWriteMode]
  rfl

/-- Settles O17: the one rising edge comes after the `Mode` event, and finds the line released. -/
theorem turnAroundReleasesThenPulses : Obligations.TurnAroundReleasesThenPulses := by
  refine ⟨rfl, fun s h => ?_, fun _ => edgesFrom_pulseEvents .inp,
    fun s => exec_of_not_initDone (by simp)⟩
  rw [exec_direction_of_ready rfl h, bodyOf_turnAround]
  rfl

/-! ## TURN_AROUND as two commands (R124) -/

/-- A list of commands goes on from the next state of its first (R46). -/
theorem execAll_cons_of_next {i : Instr} {is : List Instr} {s t : State} (h : exec i s = .next t) :
    execAll (i :: is) s = execAll is t := by
  simp [execAll, h]

/-- A performed command raises no fault and leaves INIT_DONE set: the next one finds the block ready. -/
theorem ready_bodyOf {i : Instr} {s : State} (h0 : s.fault.code = .none) (hc : faultOf i s = none) :
    Ready (bodyOf i s) :=
  ⟨by rw [bodyOf_fault, h0], bodyOf_initDone hc⟩

theorem exec_clockPulse_of_ready {s : State} (h : Ready s) :
    exec .clockPulse s = .next (bodyOf .clockPulse s) :=
  exec_of_faultOf_none h.1 (faultOf_clockPulse_none.mpr h.2)

/-- The pseudocode of TURN_AROUND is that of SET_READ_MODE, then that of CLOCK_PULSE. -/
theorem bodyOf_turnAround_eq_clockPulse (s : State) :
    bodyOf .turnAround s = bodyOf .clockPulse (bodyOf .setReadMode s) := rfl

/-- Settles O18: neither of the two commands faults, and their pseudocodes make up TURN_AROUND's. -/
theorem turnAroundIsReadModeThenPulse : Obligations.TurnAroundIsReadModeThenPulse := by
  intro s h
  have hmid : Ready (bodyOf .setReadMode s) := ready_bodyOf h.1 ((faultOf_direction_none rfl).mpr h.2)
  refine ⟨bodyOf .turnAround s, exec_direction_of_ready rfl h, ?_, bodyOf_fault .turnAround s⟩
  calc execAll [.setReadMode, .clockPulse] s
      = execAll [.clockPulse] (bodyOf .setReadMode s) :=
        execAll_cons_of_next (exec_direction_of_ready rfl h)
    _ = .next (bodyOf .clockPulse (bodyOf .setReadMode s)) :=
        execAll_cons_of_next (exec_clockPulse_of_ready hmid)
    _ = .next (bodyOf .turnAround s) := by rw [bodyOf_turnAround_eq_clockPulse]

end Sys2Proof.Machine
end

section
/-! SUPPORT. The statements of 43_bit_io.md: SET_DATA (R140), WRITE_BITS (R142), READ_BITS (R145), the value
READ_BITS assembles as a sum (R146), and the round trip over a loopback (R147). -/

namespace Sys2Proof.Machine

/-! ## When the bit commands are performed, and when DIR stops them (R142, R145, R203) -/

section
variable {s : State} {n : Nat}

theorem exec_readBits_of_ready (h : ReadyToRead s) (hn : n ≤ 32) :
    exec (.readBits n) s = .next (bodyOf (.readBits n) s) := by
  obtain ⟨⟨h0, hinit⟩, hdir⟩ := h
  exact exec_of_faultOf_none h0 (faultOf_readBits_none.mpr ⟨hinit, hn, hdir⟩)

/-- With a count in range the direction is the next check (R203, R204). -/
theorem faultOf_writeBits_dir {v : DataWord} (hinit : s.initDone = true) (hn : n ≤ 32)
    (hdir : s.dir ≠ .write) : faultOf (.writeBits v n) s = some .dirNotWrite := by
  simp [faultOf, hinit, Nat.not_lt.mpr hn, hdir]

theorem faultOf_readBits_dir (hinit : s.initDone = true) (hn : n ≤ 32) (hdir : s.dir ≠ .read) :
    faultOf (.readBits n) s = some .dirNotRead := by
  simp [faultOf, hinit, Nat.not_lt.mpr hn, hdir]

theorem faultOf_setData_dir {l : Level} (hinit : s.initDone = true) (hdir : s.dir ≠ .write) :
    faultOf (.setData l) s = some .dirNotWrite := by
  simp [faultOf, hinit, hdir]

end

/-! ## SET_DATA (R140) and WRITE_BITS (R142) -/

/-- Settles O19: with DIR WRITE no check fails and one `Set` is emitted, which is no rising edge. -/
theorem setDataDrivesTheLevel : Obligations.SetDataDrivesTheLevel := by
  intro l
  refine ⟨by cases l <;> rfl, ?_, fun _ _ => rfl, fun s => exec_of_not_initDone (by simp), ?_⟩
  · rintro s ⟨⟨h0, hinit⟩, hdir⟩
    rw [exec_of_faultOf_none h0 (faultOf_setData_none.mpr ⟨hinit, hdir⟩), bodyOf_setData]
  · rintro s ⟨h0, hinit⟩ hdir
    exact exec_of_faultOf_some h0 (faultOf_setData_dir hinit hdir)

/-- Settles O20: with every check passed the pseudocode runs; else the first failing check faults. -/
theorem writeBitsSendsLowBitsInOrder : Obligations.WriteBitsSendsLowBitsInOrder := by
  intro v n
  refine ⟨rfl, ?_, fun s => exec_of_not_initDone (by simp), ?_, ?_⟩
  · rintro s ⟨⟨h0, hinit⟩, hdir⟩ hn
    rw [exec_of_faultOf_none h0 (faultOf_writeBits_none.mpr ⟨hinit, hn, hdir⟩), bodyOf_writeBits]
    rfl
  · rintro s ⟨h0, hinit⟩ hn
    exact exec_of_faultOf_some h0 (faultOf_writeBits_long hinit hn)
  · rintro s ⟨h0, hinit⟩ hn hdir
    exact exec_of_faultOf_some h0 (faultOf_writeBits_dir hinit hn hdir)

/-! ## READ_BITS (R145) -/

/-- The value the loop assembles from 0: the draws in their bits, and 0 above them (R145, R160). -/
theorem receiveBits_zero_getLsbD {w : Nat} (n : Nat) (s : State) {k : Nat} (hk : k < w) :
    (receiveBits 0 n (0 : BitVec w) s).1.getLsbD k = (decide (k < n) && targetLevel s k) := by
  rw [receiveBits_getLsbD n 0 0 s k hk]
  by_cases hkn : k < n <;> simp [hkn]

/-- The events of the coming samples, by their number instead of their level. -/
theorem readEvents_comingLevels (s : State) (n : Nat) :
    readEvents (comingLevels s n) =
      (List.range n).flatMap fun k => .sample .dio (targetLevel s k) :: pulseEvents :=
  List.flatMap_map ..

/-- Settles O21: with every check passed the loop assembles RDATA from the draws in their order; else the
first failing check faults. -/
theorem readBitsAssemblesSamplesInOrder : Obligations.ReadBitsAssemblesSamplesInOrder := by
  intro n
  refine ⟨rfl, ?_, fun s => exec_of_not_initDone (by simp), ?_, ?_⟩
  · intro s h hn
    refine ⟨_, fun k => receiveBits_zero_getLsbD n s, ?_⟩
    rw [exec_readBits_of_ready h hn, bodyOf_readBits, readEvents_comingLevels]
    rfl
  · rintro s ⟨h0, hinit⟩ hn
    exact exec_of_faultOf_some h0 (faultOf_readBits_long hinit hn)
  · rintro s ⟨h0, hinit⟩ hn hdir
    exact exec_of_faultOf_some h0 (faultOf_readBits_dir hinit hn hdir)

/-! ## The value read as a sum (R146) -/

/-- The low `n` bits of a number are the sum of its bits at their places. -/
theorem mod_two_pow_eq_sum_bits (x n : Nat) :
    x % 2 ^ n = ((List.range n).map fun i => (x.testBit i).toNat <<< i).sum := by
  induction n with
  | zero => simp [Nat.mod_one]
  | succ n ih =>
    rw [Nat.mod_pow_succ, ih, List.range_succ, List.map_append, List.sum_append, List.map_singleton,
      List.sum_singleton, Nat.toNat_testBit, Nat.shiftLeft_eq, Nat.mul_comm]

/-- No bit from the n-th on is set in what `n` draws assemble. -/
theorem receiveBits_zero_toNat_lt {w : Nat} (n : Nat) (s : State) :
    (receiveBits 0 n (0 : BitVec w) s).1.toNat < 2 ^ n := by
  refine Nat.lt_pow_two_of_testBit _ fun k hk => ?_
  rw [BitVec.testBit_toNat]
  by_cases hkw : k < w
  · rw [receiveBits_zero_getLsbD n s hkw, decide_eq_false (Nat.not_lt.mpr hk), Bool.false_and]
  · exact BitVec.getLsbD_of_ge _ _ (Nat.le_of_not_lt hkw)

theorem receiveBits_zero_toNat {w n : Nat} (hn : n ≤ w) (s : State) :
    (receiveBits 0 n (0 : BitVec w) s).1.toNat =
      ((List.range n).map fun i => (targetLevel s i).toNat <<< i).sum := by
  rw [← Nat.mod_eq_of_lt (receiveBits_zero_toNat_lt n s), mod_two_pow_eq_sum_bits]
  refine congrArg List.sum (List.map_congr_left fun k hk => ?_)
  have hkn : k < n := List.mem_range.mp hk
  rw [BitVec.testBit_toNat, receiveBits_zero_getLsbD n s (Nat.lt_of_lt_of_le hkn hn),
    decide_eq_true hkn, Bool.true_and]

/-- Settles O22: the assembled value is below 2^n, so it is the sum of its low n bits, which are the draws. -/
theorem readValueIsTheSumOfDraws : Obligations.ReadValueIsTheSumOfDraws := by
  intro n s h hn
  have hlt : (receiveBits 0 n (0 : DataWord) s).1.toNat < 2 ^ n := receiveBits_zero_toNat_lt n s
  refine ⟨_, _, exec_readBits_of_ready h hn, by rw [bodyOf_readBits], receiveBits_zero_toNat hn s, ?_,
    hlt⟩
  apply BitVec.eq_of_toNat_eq
  rw [BitVec.extractLsb'_toNat, Nat.shiftRight_eq_div_pow, Nat.div_eq_of_lt hlt, Nat.zero_mod]
  exact BitVec.toNat_zero.symm

/-! ## The round trip over a loopback (R147) -/

/-- WRITE_BITS puts the bits of the value on the line in their order (R41). -/
theorem levelsDriven_writeEvents (v : DataWord) (n : Nat) :
    levelsDriven (writeEvents v n) = (List.range n).map v.getLsbD := by
  unfold writeEvents
  induction List.range n with
  | nil => rfl
  | cons k ks ih => simpa [pulseEvents, levelsDriven] using ih

/-- Direction commands leave a block that is ready ready. -/
theorem ready_of_execAll_direction {turn : List Instr} {t u : State} (h : Ready t)
    (hturn : ∀ i ∈ turn, isDirectionCommand i = true) (hx : execAll turn t = .next u) : Ready u := by
  induction turn generalizing t with
  | nil =>
    cases hx
    exact h
  | cons i is ih =>
    obtain ⟨hi, his⟩ := List.forall_mem_cons.mp hturn
    rw [execAll_cons_of_next (exec_direction_of_ready hi h)] at hx
    exact ih (ready_bodyOf h.1 ((faultOf_direction_none hi).mpr h.2)) his hx

/-- Samples that answer the low bits of a value assemble these bits. -/
theorem receiveBits_of_comingLevels {v : DataWord} {n : Nat} {s : State}
    (h : comingLevels s n = (List.range n).map v.getLsbD) :
    (receiveBits 0 n (0 : DataWord) s).1 = BitVec.ofNat 32 (v.toNat % 2 ^ n) := by
  have hlevel : ∀ k < n, targetLevel s k = v.getLsbD k := by
    simpa [comingLevels] using h
  apply BitVec.eq_of_getLsbD_eq
  intro k hk
  rw [receiveBits_zero_getLsbD n s hk, BitVec.getLsbD_ofNat, Nat.testBit_mod_two_pow, BitVec.testBit_toNat]
  by_cases hkn : k < n
  · simp [hk, hkn, hlevel k hkn]
  · simp [hkn]

/-- Settles O26: what WRITE_BITS appended drives the low bits of the value, the direction commands leave the
block ready, and READ_BITS assembles the levels that come back. -/
theorem loopbackReadsWhatWasWritten : Obligations.LoopbackReadsWhatWasWritten := by
  rintro v n s t u turn ⟨⟨h0, hinit⟩, hwrite⟩ hn hw hturn hx hread hloop
  have hc : faultOf (.writeBits v n) s = none := faultOf_writeBits_none.mpr ⟨hinit, hn, hwrite⟩
  obtain rfl : bodyOf (.writeBits v n) s = t := by simpa [exec_of_faultOf_none h0 hc] using hw
  have hu : Ready u := ready_of_execAll_direction (ready_bodyOf h0 hc) hturn hx
  rw [bodyOf_writeBits, List.drop_left, levelsDriven_writeEvents] at hloop
  refine ⟨_, exec_readBits_of_ready ⟨hu, hread⟩ hn, ?_⟩
  rw [bodyOf_readBits, receiveBits_of_comingLevels hloop]

end Sys2Proof.Machine
end

section
/-! SUPPORT. The statements of 44_ack.md: READ_ACK (R160), the patterns of the acknowledgment (R161), and
READ_ACK as READ_BITS 3 with another result (R162). -/

namespace Sys2Proof.Machine

/-! ## When READ_ACK is performed, and when DIR stops it (R160, R203) -/

theorem exec_readAck_of_ready {s : State} (h : ReadyToRead s) :
    exec .readAck s = .next (bodyOf .readAck s) := by
  obtain ⟨⟨h0, hinit⟩, hdir⟩ := h
  exact exec_of_faultOf_none h0 (faultOf_readAck_none.mpr ⟨hinit, hdir⟩)

theorem faultOf_readAck_dir {s : State} (hinit : s.initDone = true) (hdir : s.dir ≠ .read) :
    faultOf .readAck s = some .dirNotRead := by
  simp [faultOf, hinit, hdir]

/-! ## READ_ACK (R160) -/

/-- Each draw is the bit of its number in the assembled value. -/
theorem receiveBits_zero_getLsbD_drawn {w n k : Nat} (hn : n ≤ w) (hk : k < n) (s : State) :
    (receiveBits 0 n (0 : BitVec w) s).1.getLsbD k = targetLevel s k := by
  rw [receiveBits_zero_getLsbD n s (Nat.lt_of_lt_of_le hk hn), decide_eq_true hk, Bool.true_and]

/-- ACK_OK by the bits of ACK: the first is 1 and the others are 0. -/
theorem ackOkFlag_eq_bits : ∀ a : AckBits,
    ackOkFlag a = (a.getLsbD 0 && !a.getLsbD 1 && !a.getLsbD 2) := by decide

/-- Settles O23: with DIR READ the loop assembles ACK from the three draws, which are its bits, and ACK_OK
compares these bits; else the first failing check faults. -/
theorem readAckDecodesThreeSamples : Obligations.ReadAckDecodesThreeSamples := by
  refine ⟨rfl, fun s h => ?_, fun s => exec_of_not_initDone (by simp), ?_⟩
  · have hbit : ∀ k < 3, (receiveBits 0 3 (0 : AckBits) s).1.getLsbD k = targetLevel s k :=
      fun k hk => receiveBits_zero_getLsbD_drawn (Nat.le_refl 3) hk s
    refine ⟨_, hbit 0 (by decide), hbit 1 (by decide), hbit 2 (by decide), ?_⟩
    rw [exec_readAck_of_ready h, bodyOf_readAck, ackOkFlag_eq_bits, hbit 0 (by decide),
      hbit 1 (by decide), hbit 2 (by decide), readEvents_comingLevels]
    rfl
  · rintro s ⟨h0, hinit⟩ hdir
    exact exec_of_faultOf_some h0 (faultOf_readAck_dir hinit hdir)

/-! ## The patterns of the acknowledgment (R161) -/

/-- A value as wide as the loop is long is assembled exactly when its bits are the coming levels. -/
theorem receiveBits_zero_eq_iff {w : Nat} {a : BitVec w} {s : State} :
    (receiveBits 0 w (0 : BitVec w) s).1 = a ↔ comingLevels s w = (List.range w).map a.getLsbD := by
  have hbit : ∀ k < w, (receiveBits 0 w (0 : BitVec w) s).1.getLsbD k = targetLevel s k :=
    fun k hk => receiveBits_zero_getLsbD_drawn (Nat.le_refl w) hk s
  constructor
  · rintro rfl
    exact List.map_congr_left fun k hk => (hbit k (List.mem_range.mp hk)).symm
  · intro h
    have hlevel : ∀ k < w, targetLevel s k = a.getLsbD k := by simpa [comingLevels] using h
    exact BitVec.eq_of_getLsbD_eq fun k hk => (hbit k hk).trans (hlevel k hk)

/-- A pattern that is none of the three named ones has no name, and it is not OK. -/
theorem ackName_notNamed {a : AckBits} (hok : a ≠ 0b001) (hwait : a ≠ 0b010) (hfault : a ≠ 0b100) :
    ackOkFlag a = false ∧ ackName a = .notNamed :=
  ⟨beq_false_of_ne hok, by rw [ackName, if_neg hok, if_neg hwait, if_neg hfault]⟩

/-- Settles O24: the levels listed for a name are the bits of one pattern, so ACK is that pattern exactly
when they are drawn. -/
theorem ackPatternsAreNamedAsListed : Obligations.AckPatternsAreNamedAsListed := by
  intro s t h hx
  obtain rfl : bodyOf .readAck s = t := Host.Outcome.next.inj ((exec_readAck_of_ready h).symm.trans hx)
  have hack : ∀ a : AckBits, (receiveBits 0 3 (0 : AckBits) s).1 = a ↔
      comingLevels s 3 = (List.range 3).map a.getLsbD := fun _ => receiveBits_zero_eq_iff
  rw [bodyOf_readAck]
  refine ⟨⟨_, rfl, fun k hk => receiveBits_zero_getLsbD_drawn (Nat.le_refl 3) hk s⟩,
    fun hl => ?ok, fun hl => ?wait, fun hl => ?fault, fun hl => ?unnamed⟩
  case ok => rw [(hack 0b001).mpr hl]; exact ⟨rfl, rfl, rfl⟩
  case wait => rw [(hack 0b010).mpr hl]; exact ⟨rfl, rfl, rfl⟩
  case fault => rw [(hack 0b100).mpr hl]; exact ⟨rfl, rfl, rfl⟩
  case unnamed =>
    simp only [List.mem_cons, List.not_mem_nil, or_false, not_or] at hl
    obtain ⟨hok, hwait, hfault⟩ := hl
    obtain ⟨hflag, hname⟩ := ackName_notNamed (mt (hack 0b001).mp hok) (mt (hack 0b010).mp hwait)
      (mt (hack 0b100).mp hfault)
    exact ⟨congrArg some hflag, congrArg some hname⟩

/-! ## READ_ACK and READ_BITS 3 (R162) -/

/-- The low n bits of what n draws assemble are what they assemble in n bits. -/
theorem extractLsb'_receiveBits_zero {w n : Nat} (hn : n ≤ w) (s : State) :
    (receiveBits 0 n (0 : BitVec w) s).1.extractLsb' 0 n = (receiveBits 0 n (0 : BitVec n) s).1 := by
  refine BitVec.eq_of_getLsbD_eq fun k hk => ?_
  rw [BitVec.getLsbD_extractLsb', decide_eq_true hk, Bool.true_and, Nat.zero_add,
    receiveBits_zero_getLsbD_drawn hn hk, receiveBits_zero_getLsbD_drawn (Nat.le_refl n) hk]

/-- Settles O25: both commands run the loop over three draws, and differ in where they put its value. -/
theorem readAckIsReadBitsThree : Obligations.ReadAckIsReadBitsThree := by
  intro s h
  refine ⟨_, _, (receiveBits 0 3 (0 : DataWord) s).1, exec_readAck_of_ready h,
    exec_readBits_of_ready h (by decide), ?_⟩
  rw [bodyOf_readAck, bodyOf_readBits, extractLsb'_receiveBits_zero (by decide)]
  exact ⟨rfl, rfl, rfl, rfl⟩

end Sys2Proof.Machine
end

section
/-! SUPPORT. The statements of 47_session_sequence.md: the branch of the handshake on ACK_OK (R179, R180), the
store of IDCODE (R181), and the CALLER's read of IDCODE (R182). -/

namespace Sys2Proof.Machine

/-! ## The CALLER's work after a command (R179 to R181) -/

/-- A step whose command answers a next state goes on with the CALLER's work after it (R7, R37). -/
theorem step_of_exec_next {s t : State} {e : Issue} {i : Instr} (h0 : s.fault.code = .none)
    (he : s.program[s.pc]? = some e) (hd : decode e.cmd e.wdata = .command i) (hx : exec i s = .next t) :
    step s = afterCommand e.after (countIssue t) := by
  rw [stepRunsTheDecodedCommand s e i h0 he hd, hx]
  rfl

section
variable {s : State} (h0 : s.fault.code = .none)
include h0

/-- ACK_OK 0 ends the handshake (R180). -/
theorem afterCommand_branchOnAck_zero (ha : s.ackOk = some false) :
    afterCommand .branchOnAck s = .next { s with session := .noDevice } := by
  simp [afterCommand, faultPending, h0, branchOnAck, readAckOk, readElement, ha]

/-- ACK_OK 1 makes READ_BITS 32 the next issue (R181). -/
theorem afterCommand_branchOnAck_one (ha : s.ackOk = some true) :
    afterCommand .branchOnAck s = .next (placeIssues [readIdcodeIssue] s) := by
  simp [afterCommand, faultPending, h0, branchOnAck, readAckOk, readElement, ha]

/-- The value of RDATA is stored and the device is found (R181). -/
theorem afterCommand_storeIdcode {v : DataWord} (hr : s.rdata = some v) :
    afterCommand .storeIdcode s = .next { s with idcode := some v, session := .deviceFound } := by
  simp [afterCommand, faultPending, h0, storeIdcode, readRdata, readElement, hr]

end

/-! ## The branch after READ_ACK (R179, R180) -/

/-- READ_ACK leaves ACK_OK at 1 exactly when the three levels are 1, 0, 0 (R160). -/
theorem bodyOf_readAck_ackOk_eq (s : State) :
    (bodyOf .readAck s).ackOk = some (decide (comingLevels s 3 = [true, false, false])) := by
  have hiff : (receiveBits 0 3 (0 : AckBits) s).1 = ackOkCode ↔
      comingLevels s 3 = [true, false, false] := receiveBits_zero_eq_iff
  rw [bodyOf_readAck, ← decide_eq_decide.mpr hiff]
  rfl

/-- Settles O51: the step is READ_ACK, then the branch on the ACK_OK it left, which tells 1, 0, 0 from every
other draw. -/
theorem ackBranchDecidesTheSession : Obligations.AckBranchDecidesTheSession := by
  intro s h he
  have ⟨⟨hfault, _⟩, _⟩ := h
  have hstep : step s = afterCommand .branchOnAck (countIssue (bodyOf .readAck s)) :=
    step_of_exec_next hfault he (by decide) (exec_readAck_of_ready h)
  have h0 : (countIssue (bodyOf .readAck s)).fault.code = .none := by
    rw [countIssue_fault, bodyOf_fault, hfault]
  have hack : (countIssue (bodyOf .readAck s)).ackOk =
      some (decide (comingLevels s 3 = [true, false, false])) := bodyOf_readAck_ackOk_eq s
  by_cases hl : comingLevels s 3 = [true, false, false]
  · rw [decide_eq_true hl] at hack
    rw [afterCommand_branchOnAck_one h0 hack] at hstep
    exact ⟨_, hstep, by simp, by simp, by simp, fun hne => absurd hl hne,
      fun _ => ⟨by simp, placeIssues_next ..⟩⟩
  · rw [decide_eq_false hl] at hack
    rw [afterCommand_branchOnAck_zero h0 hack] at hstep
    exact ⟨_, hstep, by simp, by simp, by simp, fun _ => ⟨rfl, by simp, rfl⟩,
      fun hl' => absurd hl' hl⟩

/-! ## The store after READ_BITS 32 (R181) -/

/-- Settles O52: the step is READ_BITS 32, which puts every draw in RDATA, then the store of that value. -/
theorem storeMakesTheDeviceFound : Obligations.StoreMakesTheDeviceFound := by
  intro s h he
  have ⟨⟨hfault, _⟩, hdir⟩ := h
  have hstep : step s = afterCommand .storeIdcode (countIssue (bodyOf (.readBits 32) s)) :=
    step_of_exec_next hfault he (by decide) (exec_readBits_of_ready h (Nat.le_refl 32))
  have h0 : (countIssue (bodyOf (.readBits 32) s)).fault.code = .none := by
    rw [countIssue_fault, bodyOf_fault, hfault]
  have hrdata : (countIssue (bodyOf (.readBits 32) s)).rdata =
      some (receiveBits 0 32 (0 : DataWord) s).1 := by
    rw [countIssue_rdata, bodyOf_readBits]
  rw [afterCommand_storeIdcode h0 hrdata] at hstep
  exact ⟨_, _, hstep, by simp, fun k hk => receiveBits_zero_getLsbD_drawn (Nat.le_refl 32) hk s, hrdata,
    rfl, rfl, by simp [hdir], rfl⟩

/-! ## The CALLER's read of IDCODE (R182) -/

theorem readIdcode_of_noDevice {s : State} (h : s.session = .noDevice) :
    readIdcode s = .error (.noValue .idcode) :=
  if_pos h

/-- In any other session state the read answers what IDCODE holds (R28). -/
theorem readIdcode_of_ne_noDevice {s : State} (h : s.session ≠ .noDevice) :
    readIdcode s = readElement .idcode s.idcode :=
  if_neg h

/-- Settles O53: NO_DEVICE is looked at first, then the element; with `?` in it both ways yield no value. -/
theorem idcodeReadsWhenFoundAndNotAfterNoDevice :
    Obligations.IdcodeReadsWhenFoundAndNotAfterNoDevice := by
  refine ⟨fun s v hfound hv => ?_, fun s => readIdcode_of_noDevice, fun s hnone => ?_⟩
  · rw [readIdcode_of_ne_noDevice (by simp [hfound]), hv]
    rfl
  · by_cases h : s.session = .noDevice
    · exact readIdcode_of_noDevice h
    · rw [readIdcode_of_ne_noDevice h, hnone]
      rfl

end Sys2Proof.Machine
end

section
/-! SUPPORT. The statements of 60_exceptions.md: the numbers of the fault codes (R201), the checks and their
order (R202 to R204), a fault is precise (R200) and sticky (R205), and instances share nothing (R213). -/

namespace Sys2Proof.Machine

/-! ## The fault codes (R201) -/

/-- Settles O31: the codes are evaluated one by one. -/
theorem faultCodesAreNumberedAsListed : Obligations.FaultCodesAreNumberedAsListed := by
  refine ⟨rfl, rfl, rfl, rfl, rfl, rfl, fun c => ?_⟩
  cases c <;> decide

/-! ## The checks and their order (R200, R202 to R204) -/

/-- A command that passes its checks answers a next state, and raises no fault in it (R204). -/
theorem exec_next_keeps_fault {i : Instr} {s : State} (h0 : s.fault.code = .none)
    (hc : faultOf i s = none) : ∃ t, exec i s = .next t ∧ t.fault = s.fault :=
  ⟨bodyOf i s, exec_of_faultOf_none h0 hc, bodyOf_fault i s⟩

/-- Settles O27: INIT_DONE is the first check of every command but INIT, which has none. -/
theorem commandsBeforeInitFault : Obligations.CommandsBeforeInitFault := fun s h0 hinit =>
  ⟨fun _ hi => exec_of_not_initDone hi h0 hinit,
    bodyOf .init s, exec_of_faultOf_none h0 rfl, bodyOf_fault .init s, bodyOf_initDone rfl⟩

/-- Once INIT has run, the five commands without a direction check pass their checks with any DIR (R203). -/
theorem faultOf_none_of_no_direction_check {i : Instr} {s : State} (hinit : s.initDone = true)
    (hi : i ∈ [Instr.clockPulse, .setReadMode, .setWriteMode, .turnAround, .init]) :
    faultOf i s = none := by
  simp only [List.mem_cons, List.not_mem_nil, or_false] at hi
  obtain rfl | rfl | rfl | rfl | rfl := hi
  · exact faultOf_clockPulse_none.mpr hinit
  · exact (faultOf_direction_none rfl).mpr hinit
  · exact (faultOf_direction_none rfl).mpr hinit
  · exact (faultOf_direction_none rfl).mpr hinit
  · rfl

/-- Settles O28: after INIT, with a count in range, the direction is the first check to fail. -/
theorem directionIsChecked : Obligations.DirectionIsChecked := by
  rintro s ⟨h0, hinit⟩
  refine ⟨fun hdir => ⟨fun l => ?setData, fun v n hn => ?writeBits⟩,
    fun hdir => ⟨fun n hn => ?readBits, ?readAck⟩, fun i hi => ?unchecked⟩
  case setData => exact exec_of_faultOf_some h0 (faultOf_setData_dir hinit hdir)
  case writeBits => exact exec_of_faultOf_some h0 (faultOf_writeBits_dir hinit hn hdir)
  case readBits => exact exec_of_faultOf_some h0 (faultOf_readBits_dir hinit hn hdir)
  case readAck => exact exec_of_faultOf_some h0 (faultOf_readAck_dir hinit hdir)
  case unchecked => exact exec_next_keeps_fault h0 (faultOf_none_of_no_direction_check hinit hi)

/-- A pending fault stops the LINK before it looks at the word (R204, R205). -/
theorem linkStep_of_faultPending {s : State} (h : s.fault.code ≠ .none) (cmd : CmdWord)
    (wdata : DataWord) : linkStep cmd wdata s = .fault (.stuck s.fault.code s.fault.cmd) := by
  simp [linkStep, faultPending, h, stuck]

/-- Settles O29: the pending fault is looked at first, then the word, then the checks of its command; the
word a command faults with is the word issued, since it is the command's only word. -/
theorem checksRunInOrder : Obligations.ChecksRunInOrder := by
  intro cmd wdata s
  refine ⟨fun h => linkStep_of_faultPending h cmd wdata, fun h0 =>
    ⟨fun why hd => linkStep_of_illegal h0 hd, fun i c hd hc => ?_, fun i hd hc => ?_⟩⟩
  · obtain ⟨hword, -⟩ := decode_command hd
    rw [linkStep_of_command h0 hd, exec_of_faultOf_some h0 hc, hword]
    rfl
  · rw [linkStep_of_command h0 hd]
    exact exec_next_keeps_fault h0 hc

/-- Settles O30: a command with another FAULT after it has raised the fault of its first failing check. -/
theorem faultsArePrecise : Obligations.FaultsArePrecise := by
  intro i s t h hne
  obtain ⟨-, c, hc, rfl⟩ | ⟨he, -⟩ := exec_faulted_or_performed h
  · exact ⟨rfl, faultOf_ne_none hc, rfl⟩
  · exact absurd he hne

/-! ## A pending fault (R205) and reset (R230) -/

/-- A stuck block has no step, whether or not the CALLER has an issue (R205). -/
theorem step_of_faultPending {s : State} (h : s.fault.code ≠ .none) :
    step s = .fault (.stuck s.fault.code s.fault.cmd) := by
  simp [step, advance, faultPending, h, stuck]

/-- A creation with two pins and a positive delay answers a block with no fault pending (R8, R9, R230). -/
theorem recreate_clears_fault {p q h : Nat} (hpq : p ≠ q) (hh : 0 < h) (s : State) :
    ∃ t, recreate p q h s = .next t ∧ t.fault = ⟨.none, none⟩ := by
  rw [recreate, if_neg hpq, if_neg hh.ne']
  exact ⟨_, rfl, rfl⟩

/-- Settles O12: the step, the commands and the LINK all look at FAULT first; reset clears it, and INIT has
no other check. -/
theorem pendingFaultSticksUntilReset : Obligations.PendingFaultSticksUntilReset := by
  intro s h
  refine ⟨step_of_faultPending h, fun i => exec_of_faultPending i h, linkStep_of_faultPending h, rfl,
    fun w hw => ?_, fun p q d hpq hd => ?_⟩
  · rw [readFaultCmd, hw]
    rfl
  · obtain ⟨t, hr, ht⟩ := recreate_clears_fault hpq hd s
    have h0 : t.fault.code = .none := by rw [ht]
    exact ⟨t, bodyOf .init t, hr, ht, exec_of_faultOf_none h0 rfl⟩

/-! ## Several instances (R213) -/

/-- A step of the k-th block, once: the pins are exclusive, and its own step's answer takes its place. -/
theorem stepInstance_next {k : Nat} {bs bs' : List State} (h : stepInstance k bs = .next bs') :
    exclusivePins bs = true ∧
      ∃ s t, bs[k]? = some s ∧ step s = .next t ∧ bs' = bs.set k t := by
  unfold stepInstance at h
  split at h
  case isFalse => cases h
  case isTrue hpins =>
    refine ⟨hpins, ?_⟩
    cases hs : bs[k]? with
    | none => rw [hs] at h; cases h
    | some s =>
      simp only [hs] at h
      cases ht : step s with
      | next t => rw [ht] at h; cases h; exact ⟨s, t, rfl, ht, rfl⟩
      | fault f => rw [ht] at h; cases h
      | refused r => rw [ht] at h; cases h

/-- Exclusivity looks at the pins only: a block with the same pins may take a block's place. -/
theorem exclusivePins_set {bs : List State} {k : Nat} {s t : State} (hs : bs[k]? = some s)
    (hclk : t.pinClk = s.pinClk) (hdio : t.pinDio = s.pinDio) :
    exclusivePins (bs.set k t) = exclusivePins bs := by
  obtain ⟨hk, rfl⟩ := List.getElem?_eq_some_iff.mp hs
  have hpins : (bs.set k t).map (fun s => [s.pinClk, s.pinDio]) =
      bs.map fun s => [s.pinClk, s.pinDio] := by
    rw [List.map_set, hclk, hdio, ← List.map_set, List.set_getElem_self]
  simp only [exclusivePins, List.flatMap_def, hpins]

/-- Settles O54: one place of the list is written, with a state whose pins are as before. -/
theorem instancesShareNothing : Obligations.InstancesShareNothing := by
  intro k bs bs' h
  obtain ⟨hpins, s, t, hs, ht, rfl⟩ := stepInstance_next h
  obtain ⟨hk, -⟩ := List.getElem?_eq_some_iff.mp hs
  have hext := step_extendsTrace ht
  refine ⟨List.length_set, fun j hj => List.getElem?_set_ne hj.symm, ?_,
    s, t, hs, List.getElem?_set_self hk, ht⟩
  rw [exclusivePins_set hs hext.pinClk hext.pinDio, hpins]

end Sys2Proof.Machine
end

section
/-! SUPPORT. The statements of 70_reset_and_hazards.md: the reset values of the block (R230) and of the
reference program (R235), and the invariant after reset and after every creation that is not refused. -/

namespace Sys2Proof.Machine

/-! ## Reset of the block (R230) -/

/-- Reset of the block, once: it is answered exactly for two distinct pins and a positive delay (R8, R9),
and only the CALLER's and the TARGET's side is kept (entry 19). -/
theorem recreate_next_iff {p q h : Nat} {s t : State} : recreate p q h s = .next t ↔
    p ≠ q ∧ 0 < h ∧ t = { State.created p q h with
      session := s.session, idcode := s.idcode, pc := s.pc, program := s.program
      target := s.target, samples := s.samples } := by
  by_cases hpq : p = q
  · simp [recreate, hpq]
  · by_cases hh : h = 0
    · simp [recreate, hpq, hh]
    · simp [recreate, hpq, hh, Nat.pos_of_ne_zero, eq_comm]

/-- A creation that is not refused answers the block of `State.created`, and had good parameters. -/
theorem create_next_iff {p q h : Nat} {t : State} :
    create p q h = .next t ↔ p ≠ q ∧ 0 < h ∧ t = State.created p q h :=
  recreate_next_iff

/-- Settles O48: with these parameters the creation is answered, and what it does not keep is as in a block
right after its creation. -/
theorem resetWritesEveryElement : Obligations.ResetWritesEveryElement := fun _ _ _ _ hpq hh =>
  recreate_next_iff.mpr ⟨hpq, hh, rfl⟩

/-! ## The invariant after reset -/

/-- A created block meets the invariant: its trace is empty and its lines are those of reset, and nothing
is configured, driven, sampled or stored; the hypotheses are the invariant's own on the parameters. -/
theorem machineInv_created {p q h : Nat} (hpq : p ≠ q) (hh : 0 < h) :
    MachineInv (State.created p q h) where
  linesFollowTrace := rfl
  dirMatchesMode hdir := absurd rfl hdir
  configuredByInit := by simp [ConfiguredByInit, State.created]
  untouchedBeforeInit _ := ⟨rfl, rfl⟩
  clockIdlesHigh := by simp [State.created]
  ackOkMatchesAck := rfl
  faultNamesWord := by simp [FaultNamesWord, State.created]
  foundHasIdcode hfound := by simp [State.created] at hfound
  goodParameters := ⟨hpq, hh⟩
  wireDiscipline := rfl

/-- The OPEN duration is positive, being one more than a natural number (R9, entry 5). -/
theorem config_tHalf_pos : 0 < Config.tHalf := Nat.succ_pos _

/-- Settles O47: reset is the creation with the OPEN parameters of Config, and a creation that is not
refused had good ones. -/
theorem resetMeetsTheInvariant : Obligations.ResetMeetsTheInvariant := by
  refine ⟨machineInv_created config_pinClk_ne_pinDio config_tHalf_pos, fun p q h t hc => ?_⟩
  obtain ⟨hpq, hh, rfl⟩ := create_next_iff.mp hc
  exact machineInv_created hpq hh

/-! ## Reset of the reference program (R235) -/

/-- Settles O50: `resetProgram` writes these three elements, and `State.reset` holds the same values in
them. -/
theorem programResetValues : Obligations.ProgramResetValues :=
  ⟨fun _ => rfl, rfl, rfl, rfl⟩

end Sys2Proof.Machine
end
